-- ==== Sys2Proof/Word.lean ====
section
/-! DEFINITION. Word.lean: the bit-vector types of the DSD4 core (00_scope.md R2, R7) and the shape of an immediate. -/

namespace Sys2Proof

/-- The machine word: registers, special registers, instruction words and memory locations are all 32 bits (R2). -/
abbrev Word := BitVec 32

/-- A 5-bit register number of a register set, r0 to r31 (R128). -/
abbrev Reg := BitVec 5

/-- A 44-bit linear word address (R71). -/
abbrev LinAddr := BitVec 44

/-- A vector number, 0 to 511 (R128). -/
abbrev VectorNo := BitVec 9

/-- The immediate of an immediate-operate instruction whose two forms share one row of the opcode table
(ORI, EORI): the short form carries 17 bits, the long form an ignored X11 field and the next word (R113, R114, R126). -/
inductive Imm where
  | short (imm : BitVec 17)
  | long (x : BitVec 11) (imm : Word)
deriving DecidableEq, Repr

end Sys2Proof
end

