-- ==== Sys2Proof/Config.lean ====
section
/-! DEFINITION. Config.lean: what an implementation fixes and the spec leaves open (00_scope.md R6), and the free
values. A constant with no body can be evaluated by nothing: a statement that mentions one holds whatever it is. -/

namespace Sys2Proof.Config

/-- STACK_MARGIN, "set to four words by default and is a core parameter" (R6, R81). Log 14. -/
def stackMargin : Word := 4

/-- ADMIT_INFERRED (R6, 92_eei_decisions.md D26): whether the ten map-only instructions for which the spec writes
an inferred meaning have it. DESIGN CHOICE, unsafe: true, so that they run; the spec's default is false. Log 7. -/
def admitInferred : Bool := true

/-- RESET_VECTOR, open, 0 to 511 (R302, R341). Log 5. -/
opaque resetVector : VectorNo

/-- VEC_PRIV, open (R302). Log 5. -/
opaque vecPriv : VectorNo

/-- VEC_BOUNDS, open (R302). Log 5. -/
opaque vecBounds : VectorNo

/-- VEC_STACK, open (R302). Log 5. -/
opaque vecStack : VectorNo

/-- VEC_DBE, VEC_DBG, VEC_TLB and VEC_MOV, open and reserved (R6, D17): no exception the model raises has one of them
(R301). Log 5, log 28. -/
opaque vecDbe : VectorNo
opaque vecDbg : VectorNo
opaque vecTlb : VectorNo
opaque vecMov : VectorNo

/-- BRK_SETS_IM, open: whether trap entry sets the interrupt mask (R240, R306). Log 6. -/
opaque brkSetsIm : Bool

/-- The free value in a memory location that nothing has written, one for each linear address, stable until the
location is written (10_state.md R41, D35). Log 2. -/
opaque unwrittenWord : Nat → Word

/-- CMP_ODD_FLAG: the odd flag after the compare of two operands, drawn afresh at each compare (R148, D12). The first
argument is the draw counter. Log 9. -/
opaque cmpOddFlag : Nat → Word → Word → Bool

/-- The external signal xf at a draw (10_state.md R39). Log 10. -/
opaque externalSignal : Nat → Bool

/-- What the environment offers at a draw between two instructions while IM = 0: nothing, or a hardware interrupt with
the vector on the external vector bus (60_exceptions.md R305). Log 11. -/
opaque interruptRequest : Nat → Option VectorNo

/-- The bits read in the unused positions 31..10 and 5 of the machine status word at a draw (10_state.md R29, U6).
Only those positions are used. Log 12. -/
opaque mswUnused : Nat → Word

/-- The program counter that the reset BRK saves, unspecified (60_exceptions.md R303). Log 4. -/
opaque resetSavedPc : Word

end Sys2Proof.Config
end

