-- ==== Sys2Proof/Machine/State.lean ====
section
/-! DEFINITION. Machine/State.lean: everything the spec gives the machine to hold (10_state.md R20 to R42), the reasons
a step can stop, and the state after reset. -/

namespace Sys2Proof.Machine

/-- The four operating modes, each naming its register set (10_state.md R20). -/
inductive Mode where
  | user1
  | user2
  | system
  | debug
deriving DecidableEq, Repr

/-- One thing for each mode (60_exceptions.md R315). -/
structure PerMode (α : Type) where
  user1 : α
  user2 : α
  system : α
  debug : α
deriving DecidableEq, Repr

/-- The condition flags of one mode: carry, zero, negative, overflow, odd (10_state.md R27). -/
structure Flags where
  cf : Bool
  zf : Bool
  nf : Bool
  vf : Bool
  odd : Bool
deriving DecidableEq, Repr

/-- The register set of one mode: r1 to r30 (entry i of `gpr` is register i + 1), the stack pointer r31, the flags,
the segment registers and their limits, the stack bounds (10_state.md R21 to R24, R27, R30 to R33). r0 is no storage. -/
structure Bank where
  gpr : Vector Word 30
  sp : Word
  flags : Flags
  ds : Word
  es : Word
  fs : Word
  gs : Word
  cs : Word
  dsl : Word
  esl : Word
  fsl : Word
  gsl : Word
  csl : Word
  sl : Word
  su : Word
deriving DecidableEq, Repr

/-- One memory location: a linear word address and the 32-bit word it holds. Memory is word addressed and has no
byte order (20_memory.md R84, R85), so a cell holds a word. Log 1. -/
abbrev Cell := Nat × Word

/-- Memory as the list of the locations something has written, addresses strictly rising; an address not listed holds
no value of its own (see `State.readWord`, log 2). -/
abbrev Memory := List Cell

/-- The machine. `banks` to `mem` are the spec's (10_state.md, section 1); `resetPending` (the reset BRK of R341 has
not yet run, log 4) and `draws` (the count of free values drawn, log 13) are the model's own. -/
structure State where
  banks : PerMode Bank
  mode : Mode
  im : Bool
  rf : Bool
  pc : Word
  vcs : Word
  faultPc : Word
  faultCs : Word
  faultAddr : Word
  faultSeg : Word
  mem : Memory
  resetPending : Bool
  draws : Nat
deriving DecidableEq, Repr

/-- The exceptions whose cause the spec states (60_exceptions.md R300). A data fault carries the offset and the segment
value it records. They are taken (a next state), they are no `Fault`. -/
inductive Exn where
  | priv
  | boundsFetch
  | boundsData (off seg : Word)
  | stackFault (off seg : Word)
deriving DecidableEq, Repr

/-- Why the machine is stuck. -/
inductive Fault where
  /-- Raised by `brkSequence` (BRK, a hardware interrupt, exception entry, the reset BRK) and by RTI when a push or a
  pop fails its stack bounds or has a reserved selector: the spec describes no state after it, "the run is stuck"
  (60_exceptions.md R311, U17). Safe: nothing is claimed of what the hardware does next. Log 17. -/
  | faultInTrapSequence
deriving DecidableEq, Repr

/-- Why the spec gives no meaning (93_implementation_defined.md, section 2). Each is safe: the model stops where the
hardware may go on. -/
inductive Refusal where
  /-- Raised by an arm of `exec` that has no meaning yet. No arm is left so. -/
  | notModelled (mnemonic : String)
  /-- Raised by `dataAddr` for an effective address with selector 101 or 110 (R73). Only an ordinary data access could
  bring it to a step; inside a trap sequence it is `Fault.faultInTrapSequence`. -/
  | reservedSelector
  /-- Raised by `decode` for a blank cell of an opcode map or of the branch condition table (R129). -/
  | unassignedEncoding
  /-- Raised by `decode`, and by JMF for its third word, for a nonzero unused field of a documented instruction (R130). -/
  | nonzeroUnusedField
  /-- Raised by the instructions the spec knows by name and number only, and by a word of one of the ten with an
  inferred meaning that lies outside the inferred format (R5, D26). -/
  | mapOnlyInstruction
  /-- Raised by a Bcc word that holds the long-immediate pattern (R200). -/
  | bccLongImmediatePattern
  /-- Raised by BSR (R203). -/
  | bsrLinkUnspecified
  /-- Raised by JMF whose Ts field names no set, or a set other than the current one (R232). -/
  | jmfTsUnspecified
  /-- Raised by RTI in debug mode (R242). -/
  | rtiInDebugMode
  /-- Raised by MOV with a set code 4, 5 or 6 (R244). -/
  | reservedSetCode
  /-- Raised by MOV in a user mode between sets that the spec does not admit (R243). -/
  | movPrivilegeUnspecified
  /-- Raised by MFSPR of a number with no named register (R245). -/
  | unlistedSpr
deriving DecidableEq, Repr

/-- A register set whose every register is zero: the values the model names where the spec marks the reset value X or
does not mention the register (10_state.md R42). DESIGN CHOICE, unsafe, log 3. -/
def Bank.zero : Bank where
  gpr := Vector.replicate 30 0
  sp := 0
  flags := ⟨false, false, false, false, false⟩
  ds := 0
  es := 0
  fs := 0
  gs := 0
  cs := 0
  dsl := 0
  esl := 0
  fsl := 0
  gsl := 0
  csl := 0
  sl := 0
  su := 0

/-- The system set at reset: DS, DSL, ssp and the stack bounds as 10_state.md R42 states them. -/
def Bank.systemReset : Bank :=
  { Bank.zero with ds := 0, dsl := 0xFFFFFFFF, sp := 0x100, sl := 0, su := 0x100 }

/-- Reset is released and the reset BRK has not run (10_state.md R42, 70_reset_and_hazards.md R340): the first step is
that BRK (R341). Values the spec marks X are zero (log 3); no memory location is written. -/
def State.reset : State where
  banks := ⟨Bank.zero, Bank.zero, Bank.systemReset, Bank.zero⟩
  mode := .system
  im := true
  rf := false
  pc := 0
  vcs := 0xFFFFFFFF
  faultPc := 0
  faultCs := 0
  faultAddr := 0
  faultSeg := 0
  mem := []
  resetPending := true
  draws := 0

/-- What one instruction, one operation or one step answers. -/
abbrev Result := Host.Outcome State Fault Refusal

end Sys2Proof.Machine
end

