-- ==== Sys2Proof/Syntax.lean ====
section
/-! DEFINITION. Syntax.lean: the instructions, one constructor for each row of the opcode table. A register field is
a 5-bit number of the current set; `imm` of a short form and of a branch is the 17-bit field w0[31:15]; a field `u` is
kept where the opcode table leaves its bits free although the rule wants zeros; `rest` holds every bit of a word whose
format the spec does not give. -/

namespace Sys2Proof

inductive Instr where
  /-- BRK, format BRK (R116, R240). -/
  | brk (vector : VectorNo)
  /-- NOP, map only, inferred meaning for `rest` = 0 (R145). -/
  | nop (rest : BitVec 27)
  /-- Any Bcc word with w0[31:26] = 100000b; `low` is w0[25:15] (R200, R126). -/
  | bccLong (low : BitVec 11) (cond : BitVec 5) (ra : Reg)
  /-- The branches, format BR (R115, R201 to R228). `ra` is read only by brz, bnz, brp and brn. -/
  | bra (imm : BitVec 17) (ra : Reg)
  | bsr (imm : BitVec 17) (ra : Reg)
  | bhi (imm : BitVec 17) (ra : Reg)
  | bls (imm : BitVec 17) (ra : Reg)
  | bhs (imm : BitVec 17) (ra : Reg)
  | blo (imm : BitVec 17) (ra : Reg)
  | bne (imm : BitVec 17) (ra : Reg)
  | beq (imm : BitVec 17) (ra : Reg)
  | bvc (imm : BitVec 17) (ra : Reg)
  | bvs (imm : BitVec 17) (ra : Reg)
  | bpl (imm : BitVec 17) (ra : Reg)
  | bmi (imm : BitVec 17) (ra : Reg)
  | bge (imm : BitVec 17) (ra : Reg)
  | blt (imm : BitVec 17) (ra : Reg)
  | bgt (imm : BitVec 17) (ra : Reg)
  | ble (imm : BitVec 17) (ra : Reg)
  | bev (imm : BitVec 17) (ra : Reg)
  | bod (imm : BitVec 17) (ra : Reg)
  | bpo (imm : BitVec 17) (ra : Reg)
  | brz (imm : BitVec 17) (ra : Reg)
  | bnz (imm : BitVec 17) (ra : Reg)
  | brp (imm : BitVec 17) (ra : Reg)
  | brn (imm : BitVec 17) (ra : Reg)
  | bxc (imm : BitVec 17) (ra : Reg)
  | bxs (imm : BitVec 17) (ra : Reg)
  | brc (imm : BitVec 17) (ra : Reg)
  | brs (imm : BitVec 17) (ra : Reg)
  /-- ADDI long form, format RIL; `x` is the ignored X11 field (R114, R140). -/
  | addiL (rt ra : Reg) (x : BitVec 11) (imm : Word)
  /-- ADDI short form, format RI (R113, R140). -/
  | addi (rt ra : Reg) (imm : BitVec 17)
  /-- CMPI long and short form (R141). -/
  | cmpiL (ra : Reg) (x : BitVec 11) (imm : Word)
  | cmpi (ra : Reg) (imm : BitVec 17)
  /-- ANDI long and short form (R142). -/
  | andiL (rt ra : Reg) (x : BitVec 11) (imm : Word)
  | andi (rt ra : Reg) (imm : BitVec 17)
  /-- ORI and EORI, map only, inferred meaning in format RI or RIL (R143, R144). -/
  | ori (rt ra : Reg) (imm : Imm)
  | eori (rt ra : Reg) (imm : Imm)
  /-- JMP, format J (R117, R230). -/
  | jmp (offset : BitVec 27)
  /-- JSR, major opcode 11h, map only (R231). -/
  | jsr (rest : BitVec 27)
  /-- JMF, format JF, three words; `u` is w2[28:27] (R118, R232). -/
  | jmf (offset : BitVec 27) (segment : Word) (ts : BitVec 3) (u : BitVec 2) (limit : BitVec 27)
  /-- LD, LDAR, ST, STCR, map only (R280 to R283). -/
  | ld (rest : BitVec 27)
  | ldar (rest : BitVec 27)
  | st (rest : BitVec 27)
  | stcr (rest : BitVec 27)
  /-- The register group, major opcode 02h; `rest` is w0[26:5] of a function whose format the spec does not give. -/
  | notr (rest : BitVec 22)
  | neg (rest : BitVec 22)
  | com (rest : BitVec 22)
  /-- MOV, format MV (R119, R243). -/
  | mov (ts : BitVec 3) (rt : Reg) (ss : BitVec 3) (ra : Reg)
  /-- ADD, format RR (R112, R164). -/
  | add (rt rb ra : Reg)
  /-- SUB, map only, inferred meaning in format RR for `u` = 0 (R165). -/
  | sub (u : BitVec 7) (rt rb ra : Reg)
  /-- CMP, map only, inferred meaning for `u` = 0 and a zero Rt field `ut` (R166). -/
  | cmp (u : BitVec 7) (ut : BitVec 5) (rb ra : Reg)
  /-- AND, format RR (R167). -/
  | andr (rt rb ra : Reg)
  /-- OR and EOR, map only, inferred meaning in format RR for `u` = 0 (R168, R169). -/
  | orr (u : BitVec 7) (rt rb ra : Reg)
  | eor (u : BitVec 7) (rt rb ra : Reg)
  | andc (rest : BitVec 22)
  /-- NAND, NOR and ENOR, map only, inferred meaning in format RR for `u` = 0 (R171 to R173). -/
  | nand (u : BitVec 7) (rt rb ra : Reg)
  | nor (u : BitVec 7) (rt rb ra : Reg)
  | enor (u : BitVec 7) (rt rb ra : Reg)
  | orc (rest : BitVec 22)
  | jmpr (rest : BitVec 22)
  | jsrr (rest : BitVec 22)
  | rts (rest : BitVec 22)
  /-- RTI, format RT (R121, R242). -/
  | rti (rt ra : Reg)
  | shli (rest : BitVec 22)
  | shri (rest : BitVec 22)
  | shl (rest : BitVec 22)
  | shr (rest : BitVec 22)
  | asri (rest : BitVec 22)
  | asr (rest : BitVec 22)
  | mtspr (rest : BitVec 22)
  /-- MFSPR, format SPR (R120, R245). -/
  | mfspr (spr : BitVec 7) (rt : Reg)
  | dbg (rest : BitVec 22)
  /-- SEG, format SG (R122, R181). -/
  | seg (rt : Reg) (imm3 : BitVec 3) (ra : Reg)
  | exs (rest : BitVec 22)
  | exl (rest : BitVec 22)
deriving DecidableEq, Repr

end Sys2Proof
end

