-- ==== Sys2Proof/WellFormed.lean ====
section
/-! DEFINITION. WellFormed.lean: which instructions have words. A 17-bit immediate whose upper six bits are 100000b is
the long-immediate marker and cannot stand in a short form (30_encoding.md R126, R127) nor in a branch that has a
meaning (42_control_transfer.md R200). -/

namespace Sys2Proof

/-- The 17-bit immediate is not the long-immediate pattern 100000b in its upper six bits (R127). -/
def shortImm (imm : BitVec 17) : Bool := imm.extractLsb' 11 6 != 0x20#6

/-- The immediate of a row that admits both forms: only the short form is restricted (R127). -/
def Imm.ok : Imm → Bool
  | .short imm => shortImm imm
  | .long _ _ => true

/-- The instruction can be encoded. -/
def Instr.wellFormed : Instr → Bool
  | .bra imm _ | .bsr imm _ | .bhi imm _ | .bls imm _ | .bhs imm _ | .blo imm _ | .bne imm _ | .beq imm _
  | .bvc imm _ | .bvs imm _ | .bpl imm _ | .bmi imm _ | .bge imm _ | .blt imm _ | .bgt imm _ | .ble imm _
  | .bev imm _ | .bod imm _ | .bpo imm _ | .brz imm _ | .bnz imm _ | .brp imm _ | .brn imm _ | .bxc imm _
  | .bxs imm _ | .brc imm _ | .brs imm _ => shortImm imm
  | .addi _ _ imm | .cmpi _ imm | .andi _ _ imm => shortImm imm
  | .ori _ _ imm | .eori _ _ imm => imm.ok
  | .brk _ | .nop _ | .bccLong _ _ _ | .addiL _ _ _ _ | .cmpiL _ _ _ | .andiL _ _ _ _ | .jmp _ | .jsr _
  | .jmf _ _ _ _ _ | .ld _ | .ldar _ | .st _ | .stcr _ | .notr _ | .neg _ | .com _ | .mov _ _ _ _ | .add _ _ _
  | .sub _ _ _ _ | .cmp _ _ _ _ | .andr _ _ _ | .orr _ _ _ _ | .eor _ _ _ _ | .andc _ | .nand _ _ _ _
  | .nor _ _ _ _ | .enor _ _ _ _ | .orc _ | .jmpr _ | .jsrr _ | .rts _ | .rti _ _ | .shli _ | .shri _ | .shl _
  | .shr _ | .asri _ | .asr _ | .mtspr _ | .mfspr _ _ | .dbg _ | .seg _ _ _ | .exs _ | .exl _ => true

end Sys2Proof
end

