-- ==== Sys2Proof/Decode.lean ====
section
/-! DEFINITION. Decode.lean: from words to an instruction or a refusal by name, total on any words (30_encoding.md
R110 to R133); then the encoder, from the same format tables; then the opcode table itself (R137). -/

namespace Sys2Proof

open Machine (Refusal)

/-- What reading an instruction from its words answers. -/
abbrev Decoded := Except Refusal Instr

/-! ## The fields of a word (R112 to R122) -/

/-- Opcode5, w0[4:0] (R111). -/
def opcodeOf (w : Word) : BitVec 5 := w.extractLsb' 0 5

/-- Func5 of the register group, w0[31:27] (R111). -/
def funcOf (w : Word) : BitVec 5 := w.extractLsb' 27 5

/-- w[9:5]: Ra of every format that has one. -/
def field5 (w : Word) : BitVec 5 := w.extractLsb' 5 5

/-- w[14:10]: Rb of format RR, Rt of formats RI and RIL, Cond of format BR. -/
def field10 (w : Word) : BitVec 5 := w.extractLsb' 10 5

/-- w[19:15]: Rt of formats RR, MV, SPR, RT and SG. -/
def field15 (w : Word) : BitVec 5 := w.extractLsb' 15 5

/-- w[26:20]: the unused field of formats RR, RT and SG, Spr7 of format SPR. -/
def field20 (w : Word) : BitVec 7 := w.extractLsb' 20 7

/-- w[31:15]: Immediate16..0 of formats RI and BR (R125). -/
def immOf (w : Word) : BitVec 17 := w.extractLsb' 15 17

/-- w[25:15]: X11 of format RIL (R114). -/
def xOf (w : Word) : BitVec 11 := w.extractLsb' 15 11

/-- w[31:5]: Offset26..0 of formats J and JF, and all of a major map-only word but its opcode. -/
def field27 (w : Word) : BitVec 27 := w.extractLsb' 5 27

/-- w[26:5]: all of a map-only word of the register group but its opcode and function. -/
def field22 (w : Word) : BitVec 22 := w.extractLsb' 5 22

/-- w[12:10]: Ss3 of format MV, Imm3 of format SG. -/
def set10 (w : Word) : BitVec 3 := w.extractLsb' 10 3

/-- w[22:20]: Ts3 of format MV. -/
def set20 (w : Word) : BitVec 3 := w.extractLsb' 20 3

/-- w0[31:26] = 100000b, the long-immediate pattern (R126). -/
def longPattern (w : Word) : Bool := w.extractLsb' 26 6 == 0x20#6

/-! ## Decoding -/

/-- A documented instruction whose "~" fields must be zero (R130). -/
def requireZero (isZero : Bool) (i : Instr) : Decoded :=
  if isZero then .ok i else .error .nonzeroUnusedField

/-- The branch of a condition number (R201); 13h to 17h are blank (R129). -/
def decodeCond (cond : BitVec 5) (imm : BitVec 17) (ra : Reg) : Decoded :=
  if cond = 0x00#5 then .ok (.bra imm ra)
  else if cond = 0x01#5 then .ok (.bsr imm ra)
  else if cond = 0x02#5 then .ok (.bhi imm ra)
  else if cond = 0x03#5 then .ok (.bls imm ra)
  else if cond = 0x04#5 then .ok (.bhs imm ra)
  else if cond = 0x05#5 then .ok (.blo imm ra)
  else if cond = 0x06#5 then .ok (.bne imm ra)
  else if cond = 0x07#5 then .ok (.beq imm ra)
  else if cond = 0x08#5 then .ok (.bvc imm ra)
  else if cond = 0x09#5 then .ok (.bvs imm ra)
  else if cond = 0x0A#5 then .ok (.bpl imm ra)
  else if cond = 0x0B#5 then .ok (.bmi imm ra)
  else if cond = 0x0C#5 then .ok (.bge imm ra)
  else if cond = 0x0D#5 then .ok (.blt imm ra)
  else if cond = 0x0E#5 then .ok (.bgt imm ra)
  else if cond = 0x0F#5 then .ok (.ble imm ra)
  else if cond = 0x10#5 then .ok (.bev imm ra)
  else if cond = 0x11#5 then .ok (.bod imm ra)
  else if cond = 0x12#5 then .ok (.bpo imm ra)
  else if cond = 0x18#5 then .ok (.brz imm ra)
  else if cond = 0x19#5 then .ok (.bnz imm ra)
  else if cond = 0x1A#5 then .ok (.brp imm ra)
  else if cond = 0x1B#5 then .ok (.brn imm ra)
  else if cond = 0x1C#5 then .ok (.bxc imm ra)
  else if cond = 0x1D#5 then .ok (.bxs imm ra)
  else if cond = 0x1E#5 then .ok (.brc imm ra)
  else if cond = 0x1F#5 then .ok (.brs imm ra)
  else .error .unassignedEncoding

/-- Major opcode 03h: the long-immediate pattern first, then the condition table (R200). -/
def decodeBcc (w : Word) : Decoded :=
  if longPattern w then .ok (.bccLong (xOf w) (field10 w) (field5 w))
  else decodeCond (field10 w) (immOf w) (field5 w)

/-- The immediate of a row that admits both forms (R126, R146). -/
def decodeImm (w0 w1 : Word) : Imm :=
  if longPattern w0 then .long (xOf w0) w1 else .short (immOf w0)

/-- Major opcode 02h: the register group by its function (R124). -/
def decodeGroup (w : Word) : Decoded :=
  if funcOf w = 0x00#5 then .ok (.notr (field22 w))
  else if funcOf w = 0x01#5 then .ok (.neg (field22 w))
  else if funcOf w = 0x02#5 then .ok (.com (field22 w))
  else if funcOf w = 0x03#5 then requireZero (w.extractLsb' 23 4 == 0#4 && w.extractLsb' 13 2 == 0#2) (.mov (set20 w) (field15 w) (set10 w) (field5 w))
  else if funcOf w = 0x04#5 then requireZero (field20 w == 0#7) (.add (field15 w) (field10 w) (field5 w))
  else if funcOf w = 0x05#5 then .ok (.sub (field20 w) (field15 w) (field10 w) (field5 w))
  else if funcOf w = 0x06#5 then .ok (.cmp (field20 w) (field15 w) (field10 w) (field5 w))
  else if funcOf w = 0x08#5 then requireZero (field20 w == 0#7) (.andr (field15 w) (field10 w) (field5 w))
  else if funcOf w = 0x09#5 then .ok (.orr (field20 w) (field15 w) (field10 w) (field5 w))
  else if funcOf w = 0x0A#5 then .ok (.eor (field20 w) (field15 w) (field10 w) (field5 w))
  else if funcOf w = 0x0B#5 then .ok (.andc (field22 w))
  else if funcOf w = 0x0C#5 then .ok (.nand (field20 w) (field15 w) (field10 w) (field5 w))
  else if funcOf w = 0x0D#5 then .ok (.nor (field20 w) (field15 w) (field10 w) (field5 w))
  else if funcOf w = 0x0E#5 then .ok (.enor (field20 w) (field15 w) (field10 w) (field5 w))
  else if funcOf w = 0x0F#5 then .ok (.orc (field22 w))
  else if funcOf w = 0x10#5 then .ok (.jmpr (field22 w))
  else if funcOf w = 0x11#5 then .ok (.jsrr (field22 w))
  else if funcOf w = 0x12#5 then .ok (.rts (field22 w))
  else if funcOf w = 0x13#5 then requireZero (field20 w == 0#7 && field10 w == 0#5) (.rti (field15 w) (field5 w))
  else if funcOf w = 0x14#5 then .ok (.shli (field22 w))
  else if funcOf w = 0x15#5 then .ok (.shri (field22 w))
  else if funcOf w = 0x16#5 then .ok (.shl (field22 w))
  else if funcOf w = 0x17#5 then .ok (.shr (field22 w))
  else if funcOf w = 0x18#5 then .ok (.asri (field22 w))
  else if funcOf w = 0x19#5 then .ok (.asr (field22 w))
  else if funcOf w = 0x1A#5 then .ok (.mtspr (field22 w))
  else if funcOf w = 0x1B#5 then requireZero (field10 w == 0#5 && field5 w == 0#5) (.mfspr (field20 w) (field15 w))
  else if funcOf w = 0x1C#5 then .ok (.dbg (field22 w))
  else if funcOf w = 0x1D#5 then requireZero (field20 w == 0#7 && w.extractLsb' 13 2 == 0#2) (.seg (field15 w) (set10 w) (field5 w))
  else if funcOf w = 0x1E#5 then .ok (.exs (field22 w))
  else if funcOf w = 0x1F#5 then .ok (.exl (field22 w))
  else .error .unassignedEncoding

/-- Decode the instruction whose first word is `w0` (R110, R123, R133). `w1` and `w2` are the two words after it, read
only by the instructions that have them. A reserved value of an assigned field (R131) is refused by the meaning of its
instruction, where that rule's pseudocode does (R244, R245; log 20). -/
def decode (w0 w1 w2 : Word) : Decoded :=
  if opcodeOf w0 = 0x00#5 then requireZero (w0.extractLsb' 14 18 == 0#18) (.brk (w0.extractLsb' 5 9))
  else if opcodeOf w0 = 0x01#5 then .ok (.nop (field27 w0))
  else if opcodeOf w0 = 0x02#5 then decodeGroup w0
  else if opcodeOf w0 = 0x03#5 then decodeBcc w0
  else if opcodeOf w0 = 0x04#5 then
    if longPattern w0 then .ok (.addiL (field10 w0) (field5 w0) (xOf w0) w1)
    else .ok (.addi (field10 w0) (field5 w0) (immOf w0))
  else if opcodeOf w0 = 0x06#5 then
    requireZero (field10 w0 == 0#5)
    (if longPattern w0 then .cmpiL (field5 w0) (xOf w0) w1 else .cmpi (field5 w0) (immOf w0))
  else if opcodeOf w0 = 0x08#5 then
    if longPattern w0 then .ok (.andiL (field10 w0) (field5 w0) (xOf w0) w1)
    else .ok (.andi (field10 w0) (field5 w0) (immOf w0))
  else if opcodeOf w0 = 0x09#5 then .ok (.ori (field10 w0) (field5 w0) (decodeImm w0 w1))
  else if opcodeOf w0 = 0x0A#5 then .ok (.eori (field10 w0) (field5 w0) (decodeImm w0 w1))
  else if opcodeOf w0 = 0x10#5 then .ok (.jmp (field27 w0))
  else if opcodeOf w0 = 0x11#5 then .ok (.jsr (field27 w0))
  else if opcodeOf w0 = 0x14#5 then .ok (.jmf (field27 w0) w1 (w2.extractLsb' 29 3) (w2.extractLsb' 27 2) (w2.extractLsb' 0 27))
  else if opcodeOf w0 = 0x1C#5 then .ok (.ld (field27 w0))
  else if opcodeOf w0 = 0x1D#5 then .ok (.ldar (field27 w0))
  else if opcodeOf w0 = 0x1E#5 then .ok (.st (field27 w0))
  else if opcodeOf w0 = 0x1F#5 then .ok (.stcr (field27 w0))
  else .error .unassignedEncoding

/-! ## Encoding -/

/-- Format RR: Func5, ~7, Rt5, Rb5, Ra5, 02h (R112). -/
def encodeRR (func : BitVec 5) (u : BitVec 7) (rt rb ra : BitVec 5) : Word :=
  func ++ u ++ rt ++ rb ++ ra ++ 0x02#5

/-- Format RI: Immediate16..0, Rt5, Ra5, Opcode5 (R113). -/
def encodeRI (op : BitVec 5) (imm : BitVec 17) (rt ra : BitVec 5) : Word :=
  imm ++ rt ++ ra ++ op

/-- The first word of format RIL: 100000b, X11, Rt5, Ra5, Opcode5 (R114). -/
def encodeRIL (op : BitVec 5) (x : BitVec 11) (rt ra : BitVec 5) : Word :=
  0x20#6 ++ x ++ rt ++ ra ++ op

/-- Format BR: Immediate16..0, Cond5, Ra5, 03h (R115). -/
def encodeBR (cond : BitVec 5) (imm : BitVec 17) (ra : Reg) : Word :=
  imm ++ cond ++ ra ++ 0x03#5

/-- Format J, the first word of format JF, and a major map-only word: 27 bits and the opcode (R117, R118, R123). -/
def encodeJ (op : BitVec 5) (bits : BitVec 27) : Word := bits ++ op

/-- A map-only word of the register group: its function, 22 bits, 02h (R124). -/
def encodeGroup (func : BitVec 5) (rest : BitVec 22) : Word := func ++ rest ++ 0x02#5

/-- Formats MV and SG: Func5, 4 unused bits, Ts3, Rt5, ~2, Ss3 or Imm3, Ra5, 02h (R119, R122). -/
def encodeMV (func : BitVec 5) (ts : BitVec 3) (rt : Reg) (ss : BitVec 3) (ra : Reg) : Word :=
  func ++ 0#4 ++ ts ++ rt ++ 0#2 ++ ss ++ ra ++ 0x02#5

/-- The words of a row that admits both forms of the immediate (R126). -/
def encodeImm (op : BitVec 5) (rt ra : Reg) : Imm → List Word
  | .short imm => [encodeRI op imm rt ra]
  | .long x imm => [encodeRIL op x rt ra, imm]

/-- The words of an instruction, the word with the opcode first (R77, R110 to R122). -/
def encode : Instr → List Word
  | .brk vector => [0#18 ++ vector ++ 0x00#5]
  | .nop rest => [encodeJ 0x01#5 rest]
  | .bccLong low cond ra => [encodeRIL 0x03#5 low cond ra]
  | .bra imm ra => [encodeBR 0x00#5 imm ra]
  | .bsr imm ra => [encodeBR 0x01#5 imm ra]
  | .bhi imm ra => [encodeBR 0x02#5 imm ra]
  | .bls imm ra => [encodeBR 0x03#5 imm ra]
  | .bhs imm ra => [encodeBR 0x04#5 imm ra]
  | .blo imm ra => [encodeBR 0x05#5 imm ra]
  | .bne imm ra => [encodeBR 0x06#5 imm ra]
  | .beq imm ra => [encodeBR 0x07#5 imm ra]
  | .bvc imm ra => [encodeBR 0x08#5 imm ra]
  | .bvs imm ra => [encodeBR 0x09#5 imm ra]
  | .bpl imm ra => [encodeBR 0x0A#5 imm ra]
  | .bmi imm ra => [encodeBR 0x0B#5 imm ra]
  | .bge imm ra => [encodeBR 0x0C#5 imm ra]
  | .blt imm ra => [encodeBR 0x0D#5 imm ra]
  | .bgt imm ra => [encodeBR 0x0E#5 imm ra]
  | .ble imm ra => [encodeBR 0x0F#5 imm ra]
  | .bev imm ra => [encodeBR 0x10#5 imm ra]
  | .bod imm ra => [encodeBR 0x11#5 imm ra]
  | .bpo imm ra => [encodeBR 0x12#5 imm ra]
  | .brz imm ra => [encodeBR 0x18#5 imm ra]
  | .bnz imm ra => [encodeBR 0x19#5 imm ra]
  | .brp imm ra => [encodeBR 0x1A#5 imm ra]
  | .brn imm ra => [encodeBR 0x1B#5 imm ra]
  | .bxc imm ra => [encodeBR 0x1C#5 imm ra]
  | .bxs imm ra => [encodeBR 0x1D#5 imm ra]
  | .brc imm ra => [encodeBR 0x1E#5 imm ra]
  | .brs imm ra => [encodeBR 0x1F#5 imm ra]
  | .addiL rt ra x imm => [encodeRIL 0x04#5 x rt ra, imm]
  | .addi rt ra imm => [encodeRI 0x04#5 imm rt ra]
  | .cmpiL ra x imm => [encodeRIL 0x06#5 x 0#5 ra, imm]
  | .cmpi ra imm => [encodeRI 0x06#5 imm 0#5 ra]
  | .andiL rt ra x imm => [encodeRIL 0x08#5 x rt ra, imm]
  | .andi rt ra imm => [encodeRI 0x08#5 imm rt ra]
  | .ori rt ra imm => encodeImm 0x09#5 rt ra imm
  | .eori rt ra imm => encodeImm 0x0A#5 rt ra imm
  | .jmp offset => [encodeJ 0x10#5 offset]
  | .jsr rest => [encodeJ 0x11#5 rest]
  | .jmf offset segment ts u limit => [encodeJ 0x14#5 offset, segment, ts ++ u ++ limit]
  | .ld rest => [encodeJ 0x1C#5 rest]
  | .ldar rest => [encodeJ 0x1D#5 rest]
  | .st rest => [encodeJ 0x1E#5 rest]
  | .stcr rest => [encodeJ 0x1F#5 rest]
  | .notr rest => [encodeGroup 0x00#5 rest]
  | .neg rest => [encodeGroup 0x01#5 rest]
  | .com rest => [encodeGroup 0x02#5 rest]
  | .mov ts rt ss ra => [encodeMV 0x03#5 ts rt ss ra]
  | .add rt rb ra => [encodeRR 0x04#5 0#7 rt rb ra]
  | .sub u rt rb ra => [encodeRR 0x05#5 u rt rb ra]
  | .cmp u ut rb ra => [encodeRR 0x06#5 u ut rb ra]
  | .andr rt rb ra => [encodeRR 0x08#5 0#7 rt rb ra]
  | .orr u rt rb ra => [encodeRR 0x09#5 u rt rb ra]
  | .eor u rt rb ra => [encodeRR 0x0A#5 u rt rb ra]
  | .andc rest => [encodeGroup 0x0B#5 rest]
  | .nand u rt rb ra => [encodeRR 0x0C#5 u rt rb ra]
  | .nor u rt rb ra => [encodeRR 0x0D#5 u rt rb ra]
  | .enor u rt rb ra => [encodeRR 0x0E#5 u rt rb ra]
  | .orc rest => [encodeGroup 0x0F#5 rest]
  | .jmpr rest => [encodeGroup 0x10#5 rest]
  | .jsrr rest => [encodeGroup 0x11#5 rest]
  | .rts rest => [encodeGroup 0x12#5 rest]
  | .rti rt ra => [encodeRR 0x13#5 0#7 rt 0#5 ra]
  | .shli rest => [encodeGroup 0x14#5 rest]
  | .shri rest => [encodeGroup 0x15#5 rest]
  | .shl rest => [encodeGroup 0x16#5 rest]
  | .shr rest => [encodeGroup 0x17#5 rest]
  | .asri rest => [encodeGroup 0x18#5 rest]
  | .asr rest => [encodeGroup 0x19#5 rest]
  | .mtspr rest => [encodeGroup 0x1A#5 rest]
  | .mfspr spr rt => [encodeRR 0x1B#5 spr rt 0#5 0#5]
  | .dbg rest => [encodeGroup 0x1C#5 rest]
  | .seg rt imm3 ra => [encodeMV 0x1D#5 0#3 rt imm3 ra]
  | .exs rest => [encodeGroup 0x1E#5 rest]
  | .exl rest => [encodeGroup 0x1F#5 rest]

/-- The length of an instruction in words (R110). -/
def Instr.words : Instr → Nat
  | .addiL _ _ _ _ | .cmpiL _ _ _ | .andiL _ _ _ _ | .ori _ _ (.long _ _) | .eori _ _ (.long _ _) => 2
  | .jmf _ _ _ _ _ => 3
  | .brk _ | .nop _ | .bccLong _ _ _ | .bra _ _ | .bsr _ _ | .bhi _ _ | .bls _ _ | .bhs _ _ | .blo _ _
  | .bne _ _ | .beq _ _ | .bvc _ _ | .bvs _ _ | .bpl _ _ | .bmi _ _ | .bge _ _ | .blt _ _ | .bgt _ _ | .ble _ _
  | .bev _ _ | .bod _ _ | .bpo _ _ | .brz _ _ | .bnz _ _ | .brp _ _ | .brn _ _ | .bxc _ _ | .bxs _ _ | .brc _ _
  | .brs _ _ | .addi _ _ _ | .cmpi _ _ | .andi _ _ _ | .jmp _ | .jsr _ | .ld _ | .ldar _ | .st _ | .stcr _
  | .notr _ | .neg _ | .com _ | .mov _ _ _ _ | .add _ _ _ | .sub _ _ _ _ | .cmp _ _ _ _ | .andr _ _ _
  | .orr _ _ _ _ | .eor _ _ _ _ | .andc _ | .nand _ _ _ _ | .nor _ _ _ _ | .enor _ _ _ _ | .orc _ | .jmpr _
  | .jsrr _ | .rts _ | .rti _ _ | .shli _ | .shri _ | .shl _ | .shr _ | .asri _ | .asr _ | .mtspr _
  | .mfspr _ _ | .dbg _ | .seg _ _ _ | .exs _ | .exl _ | .ori _ _ (.short _) | .eori _ _ (.short _) => 1

/-- The instruction read from a word numbered as the opcode table numbers it: word k of the instruction is bits
32k + 31 .. 32k, and every bit at `nbits` or above is zero. -/
def decodeTableWord (nbits w : Nat) : Option Instr :=
  let v := w % 2 ^ nbits
  match decode (BitVec.ofNat 32 v) (BitVec.ofNat 32 (v >>> 32)) (BitVec.ofNat 32 (v >>> 64)) with
  | .ok i => some i
  | .error _ => none

/-! ## The opcode table -/

/-- The mnemonic of an instruction's row in the opcode table. -/
def Instr.mnemonic : Instr → String
  | .brk _ => "BRK"
  | .nop _ => "NOP"
  | .bccLong _ _ _ => "Bcc.longpattern"
  | .bra _ _ => "BRA"
  | .bsr _ _ => "BSR"
  | .bhi _ _ => "BHI"
  | .bls _ _ => "BLS"
  | .bhs _ _ => "BHS"
  | .blo _ _ => "BLO"
  | .bne _ _ => "BNE"
  | .beq _ _ => "BEQ"
  | .bvc _ _ => "BVC"
  | .bvs _ _ => "BVS"
  | .bpl _ _ => "BPL"
  | .bmi _ _ => "BMI"
  | .bge _ _ => "BGE"
  | .blt _ _ => "BLT"
  | .bgt _ _ => "BGT"
  | .ble _ _ => "BLE"
  | .bev _ _ => "BEV"
  | .bod _ _ => "BOD"
  | .bpo _ _ => "BPO"
  | .brz _ _ => "BRZ"
  | .bnz _ _ => "BNZ"
  | .brp _ _ => "BRP"
  | .brn _ _ => "BRN"
  | .bxc _ _ => "BXC"
  | .bxs _ _ => "BXS"
  | .brc _ _ => "BRC"
  | .brs _ _ => "BRS"
  | .addiL _ _ _ _ => "ADDI.L"
  | .addi _ _ _ => "ADDI"
  | .cmpiL _ _ _ => "CMPI.L"
  | .cmpi _ _ => "CMPI"
  | .andiL _ _ _ _ => "ANDI.L"
  | .andi _ _ _ => "ANDI"
  | .ori _ _ _ => "ORI"
  | .eori _ _ _ => "EORI"
  | .jmp _ => "JMP"
  | .jsr _ => "JSR"
  | .jmf _ _ _ _ _ => "JMF"
  | .ld _ => "LD"
  | .ldar _ => "LDAR"
  | .st _ => "ST"
  | .stcr _ => "STCR"
  | .notr _ => "NOT"
  | .neg _ => "NEG"
  | .com _ => "COM"
  | .mov _ _ _ _ => "MOV"
  | .add _ _ _ => "ADD"
  | .sub _ _ _ _ => "SUB"
  | .cmp _ _ _ _ => "CMP"
  | .andr _ _ _ => "AND"
  | .orr _ _ _ _ => "OR"
  | .eor _ _ _ _ => "EOR"
  | .andc _ => "ANDC"
  | .nand _ _ _ _ => "NAND"
  | .nor _ _ _ _ => "NOR"
  | .enor _ _ _ _ => "ENOR"
  | .orc _ => "ORC"
  | .jmpr _ => "JMP.rr"
  | .jsrr _ => "JSR.rr"
  | .rts _ => "RTS"
  | .rti _ _ => "RTI"
  | .shli _ => "SHLI"
  | .shri _ => "SHRI"
  | .shl _ => "SHL"
  | .shr _ => "SHR"
  | .asri _ => "ASRI"
  | .asr _ => "ASR"
  | .mtspr _ => "MTSPR"
  | .mfspr _ _ => "MFSPR"
  | .dbg _ => "DBG"
  | .seg _ _ _ => "SEG"
  | .exs _ => "EXS"
  | .exl _ => "EXL"

/-- A row of the opcode table: it applies to a first word w when w & mask = pattern and, where it has an exclusion,
w[31:26] is not 100000b (R137). -/
structure OpcodeRow where
  mnemonic : String
  pattern : Word
  mask : Word
  excludesLong : Bool
  words : Nat
deriving DecidableEq, Repr

/-- The row applies to the first word of an instruction (R137). -/
def OpcodeRow.applies (r : OpcodeRow) (w : Word) : Bool :=
  w &&& r.mask == r.pattern && (!r.excludesLong || w &&& 0xFC000000#32 != 0x80000000#32)

/-- Rows 1 to 26 of the opcode table. -/
def opcodeRowsLow : List OpcodeRow := [
  ⟨"BRK", 0x00000000, 0xFFFFC01F, false, 1⟩,
  ⟨"NOP", 0x00000001, 0x0000001F, false, 1⟩,
  ⟨"Bcc.longpattern", 0x80000003, 0xFC00001F, false, 1⟩,
  ⟨"BRA", 0x00000003, 0x00007C1F, true, 1⟩,
  ⟨"BSR", 0x00000403, 0x00007C1F, true, 1⟩,
  ⟨"BHI", 0x00000803, 0x00007C1F, true, 1⟩,
  ⟨"BLS", 0x00000C03, 0x00007C1F, true, 1⟩,
  ⟨"BHS", 0x00001003, 0x00007C1F, true, 1⟩,
  ⟨"BLO", 0x00001403, 0x00007C1F, true, 1⟩,
  ⟨"BNE", 0x00001803, 0x00007C1F, true, 1⟩,
  ⟨"BEQ", 0x00001C03, 0x00007C1F, true, 1⟩,
  ⟨"BVC", 0x00002003, 0x00007C1F, true, 1⟩,
  ⟨"BVS", 0x00002403, 0x00007C1F, true, 1⟩,
  ⟨"BPL", 0x00002803, 0x00007C1F, true, 1⟩,
  ⟨"BMI", 0x00002C03, 0x00007C1F, true, 1⟩,
  ⟨"BGE", 0x00003003, 0x00007C1F, true, 1⟩,
  ⟨"BLT", 0x00003403, 0x00007C1F, true, 1⟩,
  ⟨"BGT", 0x00003803, 0x00007C1F, true, 1⟩,
  ⟨"BLE", 0x00003C03, 0x00007C1F, true, 1⟩,
  ⟨"BEV", 0x00004003, 0x00007C1F, true, 1⟩,
  ⟨"BOD", 0x00004403, 0x00007C1F, true, 1⟩,
  ⟨"BPO", 0x00004803, 0x00007C1F, true, 1⟩,
  ⟨"BRZ", 0x00006003, 0x00007C1F, true, 1⟩,
  ⟨"BNZ", 0x00006403, 0x00007C1F, true, 1⟩,
  ⟨"BRP", 0x00006803, 0x00007C1F, true, 1⟩,
  ⟨"BRN", 0x00006C03, 0x00007C1F, true, 1⟩]

/-- Rows 27 to 52 of the opcode table. -/
def opcodeRowsMiddle : List OpcodeRow := [
  ⟨"BXC", 0x00007003, 0x00007C1F, true, 1⟩,
  ⟨"BXS", 0x00007403, 0x00007C1F, true, 1⟩,
  ⟨"BRC", 0x00007803, 0x00007C1F, true, 1⟩,
  ⟨"BRS", 0x00007C03, 0x00007C1F, true, 1⟩,
  ⟨"ADDI.L", 0x80000004, 0xFC00001F, false, 2⟩,
  ⟨"ADDI", 0x00000004, 0x0000001F, true, 1⟩,
  ⟨"CMPI.L", 0x80000006, 0xFC007C1F, false, 2⟩,
  ⟨"CMPI", 0x00000006, 0x00007C1F, true, 1⟩,
  ⟨"ANDI.L", 0x80000008, 0xFC00001F, false, 2⟩,
  ⟨"ANDI", 0x00000008, 0x0000001F, true, 1⟩,
  ⟨"ORI", 0x00000009, 0x0000001F, false, 1⟩,
  ⟨"EORI", 0x0000000A, 0x0000001F, false, 1⟩,
  ⟨"JMP", 0x00000010, 0x0000001F, false, 1⟩,
  ⟨"JSR", 0x00000011, 0x0000001F, false, 1⟩,
  ⟨"JMF", 0x00000014, 0x0000001F, false, 3⟩,
  ⟨"LD", 0x0000001C, 0x0000001F, false, 1⟩,
  ⟨"LDAR", 0x0000001D, 0x0000001F, false, 1⟩,
  ⟨"ST", 0x0000001E, 0x0000001F, false, 1⟩,
  ⟨"STCR", 0x0000001F, 0x0000001F, false, 1⟩,
  ⟨"NOT", 0x00000002, 0xF800001F, false, 1⟩,
  ⟨"NEG", 0x08000002, 0xF800001F, false, 1⟩,
  ⟨"COM", 0x10000002, 0xF800001F, false, 1⟩,
  ⟨"MOV", 0x18000002, 0xFF80601F, false, 1⟩,
  ⟨"ADD", 0x20000002, 0xFFF0001F, false, 1⟩,
  ⟨"SUB", 0x28000002, 0xF800001F, false, 1⟩,
  ⟨"CMP", 0x30000002, 0xF800001F, false, 1⟩]

/-- Rows 53 to 76 of the opcode table. -/
def opcodeRowsHigh : List OpcodeRow := [
  ⟨"AND", 0x40000002, 0xFFF0001F, false, 1⟩,
  ⟨"OR", 0x48000002, 0xF800001F, false, 1⟩,
  ⟨"EOR", 0x50000002, 0xF800001F, false, 1⟩,
  ⟨"ANDC", 0x58000002, 0xF800001F, false, 1⟩,
  ⟨"NAND", 0x60000002, 0xF800001F, false, 1⟩,
  ⟨"NOR", 0x68000002, 0xF800001F, false, 1⟩,
  ⟨"ENOR", 0x70000002, 0xF800001F, false, 1⟩,
  ⟨"ORC", 0x78000002, 0xF800001F, false, 1⟩,
  ⟨"JMP.rr", 0x80000002, 0xF800001F, false, 1⟩,
  ⟨"JSR.rr", 0x88000002, 0xF800001F, false, 1⟩,
  ⟨"RTS", 0x90000002, 0xF800001F, false, 1⟩,
  ⟨"RTI", 0x98000002, 0xFFF07C1F, false, 1⟩,
  ⟨"SHLI", 0xA0000002, 0xF800001F, false, 1⟩,
  ⟨"SHRI", 0xA8000002, 0xF800001F, false, 1⟩,
  ⟨"SHL", 0xB0000002, 0xF800001F, false, 1⟩,
  ⟨"SHR", 0xB8000002, 0xF800001F, false, 1⟩,
  ⟨"ASRI", 0xC0000002, 0xF800001F, false, 1⟩,
  ⟨"ASR", 0xC8000002, 0xF800001F, false, 1⟩,
  ⟨"MTSPR", 0xD0000002, 0xF800001F, false, 1⟩,
  ⟨"MFSPR", 0xD8000002, 0xF8007FFF, false, 1⟩,
  ⟨"DBG", 0xE0000002, 0xF800001F, false, 1⟩,
  ⟨"SEG", 0xE8000002, 0xFFF0601F, false, 1⟩,
  ⟨"EXS", 0xF0000002, 0xF800001F, false, 1⟩,
  ⟨"EXL", 0xF8000002, 0xF800001F, false, 1⟩]

/-- The opcode table, 76 rows (R137). -/
def opcodeTable : List OpcodeRow := opcodeRowsLow ++ opcodeRowsMiddle ++ opcodeRowsHigh

end Sys2Proof
end

