-- ==== Sys2Proof/Machine/Flags.lean ====
section
/-! DEFINITION. Machine/Flags.lean: what a compare puts in the flags, what each branch condition tests, and the machine
status word as a view of the flags (10_state.md R27, R29; 40_immediate_operate.md R148; 42_control_transfer.md R201). -/

namespace Sys2Proof.Machine

/-! ## The compare -/

/-- CmpFlags(a, b) (R148): cf the borrow of a - b, zf equality, nf and vf the sign and the signed overflow of the
difference (PRESUMED, log 9), and the odd flag as given, which the rule leaves open. -/
def compareFlags (a b : Word) (odd : Bool) : Flags :=
  let d := a - b
  { cf := a.ult b
    zf := a == b
    nf := d.msb
    vf := a.msb != b.msb && d.msb != a.msb
    odd := odd }

/-! ## The conditions of the branch table (R201) -/

/-- BHI: !cf & !zf. -/
def Flags.higher (f : Flags) : Bool := !f.cf && !f.zf

/-- BLS: cf | zf. -/
def Flags.lowerOrSame (f : Flags) : Bool := f.cf || f.zf

/-- BGE: (nf & vf) | (!nf & !vf). -/
def Flags.greaterOrEqual (f : Flags) : Bool := (f.nf && f.vf) || (!f.nf && !f.vf)

/-- BLT: (nf & !vf) | (!nf & vf). -/
def Flags.less (f : Flags) : Bool := (f.nf && !f.vf) || (!f.nf && f.vf)

/-- BGT, as corrected: (nf & vf & !zf) | (!nf & !vf & !zf) (R201, R216, 90_conflicts.md C4). Log 19. -/
def Flags.greater (f : Flags) : Bool := (f.nf && f.vf && !f.zf) || (!f.nf && !f.vf && !f.zf)

/-- BLE: zf | (nf & !vf) | (!nf & vf). -/
def Flags.lessOrEqual (f : Flags) : Bool := f.zf || (f.nf && !f.vf) || (!f.nf && f.vf)

/-- BPO: !nf & !zf. -/
def Flags.positive (f : Flags) : Bool := !f.nf && !f.zf

/-! ## The machine status word (R29) -/

/-- The MSW with the given Mode field, flags, RF and IM: bits 9..8 Mode, 7 NF, 6 VF, 4 RF, 3 OF, 2 IM, 1 ZF, 0 CF; the
unused bits 31..10 and 5 are those of `unused` (R29). -/
def mswWord (modeBits : BitVec 2) (f : Flags) (rf im : Bool) (unused : Word) : Word :=
  unused.extractLsb' 10 22 ++ modeBits ++ BitVec.ofBool f.nf ++ BitVec.ofBool f.vf ++ unused.extractLsb' 5 1 ++
    BitVec.ofBool rf ++ BitVec.ofBool f.odd ++ BitVec.ofBool im ++ BitVec.ofBool f.zf ++ BitVec.ofBool f.cf

/-- The flags a word written to the MSW restores: cf bit 0, zf bit 1, of bit 3, vf bit 6, nf bit 7 (R29). -/
def flagsOfMsw (w : Word) : Flags where
  cf := w.getLsbD 0
  zf := w.getLsbD 1
  nf := w.getLsbD 7
  vf := w.getLsbD 6
  odd := w.getLsbD 3

/-- The mode field of a word written to the MSW, bits 9..8 (R29). -/
def modeBitsOfMsw (w : Word) : BitVec 2 := w.extractLsb' 8 2

/-- IM in a word written to the MSW, bit 2 (R29). -/
def imOfMsw (w : Word) : Bool := w.getLsbD 2

/-- RF in a word written to the MSW, bit 4 (R29). -/
def rfOfMsw (w : Word) : Bool := w.getLsbD 4

end Sys2Proof.Machine
end

