-- ==== Sys2Proof/Machine/Ops.lean ====
section
/-! DEFINITION. Machine/Ops.lean: the named operations over the state: modes and register sets, memory, segmented
addresses and their bounds checks (20_memory.md R70 to R83), fetching an instruction's words, taking a trap and
returning from one (43_system.md R240 to R242, 60_exceptions.md R303 to R311). -/

namespace Sys2Proof.Machine

/-! ## Modes and register sets -/

/-- The 2-bit number of a mode (R20). -/
def Mode.bits : Mode → BitVec 2
  | .user1 => 0
  | .user2 => 1
  | .system => 2
  | .debug => 3

/-- The mode of a 2-bit number (R20). -/
def Mode.ofBits (b : BitVec 2) : Mode :=
  if b = 0#2 then .user1 else if b = 1#2 then .user2 else if b = 2#2 then .system else .debug

/-- Modes 0 and 1, in which a privileged instruction raises Priv (R250). -/
def Mode.isUser : Mode → Bool
  | .user1 => true
  | .user2 => true
  | .system => false
  | .debug => false

/-- The entry of a mode. -/
def PerMode.get {α : Type} (p : PerMode α) : Mode → α
  | .user1 => p.user1
  | .user2 => p.user2
  | .system => p.system
  | .debug => p.debug

/-- Replace the entry of a mode. -/
def PerMode.set {α : Type} (p : PerMode α) (m : Mode) (a : α) : PerMode α :=
  match m with
  | .user1 => { p with user1 := a }
  | .user2 => { p with user2 := a }
  | .system => { p with system := a }
  | .debug => { p with debug := a }

/-- Register `r` of a set: r0 reads as zero, r31 is the stack pointer (R8, R22, R23). -/
def Bank.reg (b : Bank) (r : Reg) : Word :=
  if r = 0#5 then 0 else if r = 31#5 then b.sp else b.gpr.getD (r.toNat - 1) 0

/-- Write register `r` of a set: a write to r0 is discarded, r31 is the stack pointer (R8, R22, R23). -/
def Bank.setReg (b : Bank) (r : Reg) (v : Word) : Bank :=
  if r = 0#5 then b else if r = 31#5 then { b with sp := v }
  else { b with gpr := b.gpr.setIfInBounds (r.toNat - 1) v }

/-! ## Updates of the state -/

def State.setMode (m : Mode) (s : State) : State := { s with mode := m }
def State.setIm (v : Bool) (s : State) : State := { s with im := v }
def State.setRf (v : Bool) (s : State) : State := { s with rf := v }
def State.setPc (v : Word) (s : State) : State := { s with pc := v }
def State.setMem (m : Memory) (s : State) : State := { s with mem := m }

/-- The register set of mode `m`. -/
def State.bank (s : State) (m : Mode) : Bank := s.banks.get m

/-- Replace the register set of mode `m`. -/
def State.setBank (m : Mode) (b : Bank) (s : State) : State := { s with banks := s.banks.set m b }

/-- fault_pc and fault_cs, written at every exception (R304). -/
def State.setFaultCode (pc cs : Word) (s : State) : State := { s with faultPc := pc, faultCs := cs }

/-- fault_addr and fault_seg, written at a data fault (R304). -/
def State.setFaultData (off seg : Word) (s : State) : State := { s with faultAddr := off, faultSeg := seg }

/-- The reset BRK has run (R341, log 4). -/
def State.endReset (s : State) : State := { s with resetPending := false }

/-- One more free value has been drawn (log 13). -/
def State.tick (s : State) : State := { s with draws := s.draws + 1 }

/-- xs[m][r], register `r` of register set `m` (R8). -/
def State.reg (s : State) (m : Mode) (r : Reg) : Word := (s.bank m).reg r

/-- xs[m][r] <- v (R8). -/
def State.setReg (m : Mode) (r : Reg) (v : Word) (s : State) : State := s.setBank m ((s.bank m).setReg r v)

/-- Write the flags of mode `m` (R27). -/
def State.setFlags (m : Mode) (f : Flags) (s : State) : State := s.setBank m { s.bank m with flags := f }

/-- Write the code segment and its limit of mode `m` (R31, R32). -/
def State.setCode (m : Mode) (cs csl : Word) (s : State) : State :=
  s.setBank m { s.bank m with cs := cs, csl := csl }

/-- Write the stack pointer of mode `m` (R23). -/
def State.setSp (m : Mode) (v : Word) (s : State) : State := s.setBank m { s.bank m with sp := v }

/-- An instruction of `n` words that does not assign pc ends with pc <- pc + n, modulo 2^32 (R8, R26). -/
def State.advance (n : Word) (s : State) : State := s.setPc (s.pc + n)

/-! ## Memory -/

/-- The word written at an address, if any was. -/
def Memory.lookup : Memory → Nat → Option Word
  | [], _ => none
  | (k, v) :: m, a => if k = a then some v else Memory.lookup m a

/-- Store a word at an address, keeping the addresses strictly rising. -/
def Memory.store : Memory → Nat → Word → Memory
  | [], a, v => [(a, v)]
  | (k, u) :: m, a, v =>
    if a < k then (a, v) :: (k, u) :: m else if a = k then (a, v) :: m else (k, u) :: Memory.store m a v

/-- Every address is at least `lo` and below 2^44, and the addresses strictly rise. -/
def Memory.wfFrom : Nat → Memory → Bool
  | _, [] => true
  | lo, (a, _) :: m => decide (lo ≤ a) && decide (a < 2 ^ 44) && Memory.wfFrom (a + 1) m

/-- The canonical form of memory: strictly rising addresses of the 2^44 locations (R41). -/
def Memory.wf (m : Memory) : Bool := Memory.wfFrom 0 m

/-- MemRead(a, 1): the word last written at `a`, or the free value of a location never written (R8, R41, R91). -/
def State.readWord (s : State) (a : LinAddr) : Word :=
  (s.mem.lookup a.toNat).getD (Config.unwrittenWord a.toNat)

/-- MemWrite(a, 1, v) (R8). -/
def State.writeWord (a : LinAddr) (v : Word) (s : State) : State := s.setMem (s.mem.store a.toNat v)

/-! ## Segmented addresses -/

/-- Lin(seg, off): the segment value with twelve zero bits appended, plus the offset, modulo 2^44 (R71). Log 15. -/
def lin (seg off : Word) : LinAddr := (seg ++ 0#12 : BitVec 44) + off.setWidth 44

/-- The segment registers (R30). -/
inductive SegName where
  | ds
  | es
  | fs
  | gs
  | cs
deriving DecidableEq, Repr

/-- The segment register that the upper three bits of an effective address select; 101 and 110 are reserved (R72, R73). -/
def selectSegment (sel : BitVec 3) : Option SegName :=
  if sel = 0#3 then some .ds else if sel = 1#3 then some .es else if sel = 2#3 then some .fs
  else if sel = 3#3 then some .gs else if sel = 4#3 then some .cs else if sel = 7#3 then some .ds else none

/-- The value of a segment register of a set (R31). -/
def Bank.segment (b : Bank) : SegName → Word
  | .ds => b.ds
  | .es => b.es
  | .fs => b.fs
  | .gs => b.gs
  | .cs => b.cs

/-- The limit register paired with a segment register (R32, R72). -/
def Bank.limit (b : Bank) : SegName → Word
  | .ds => b.dsl
  | .es => b.esl
  | .fs => b.fsl
  | .gs => b.gsl
  | .cs => b.csl

/-- What forming a data address answers: an address, an exception, or a refusal. -/
inductive DataAddr where
  | address (a : LinAddr)
  | raised (e : Exn)
  | refused (r : Refusal)
deriving DecidableEq, Repr

/-- The 29-bit offset of an effective address, zero-extended (R74). -/
def offsetOf (ea : Word) : Word := (ea.extractLsb' 0 29).setWidth 32

/-- The stack check of R81 with the bounds of set `b`: the offset is below sl + margin (modulo 2^32) or above su. -/
def outsideStack (b : Bank) (off margin : Word) : Bool := decide (off < b.sl + margin) || decide (b.su < off)

/-- DataAddr(ea, is_stack, margin) (R83): the selector, the bounds of the current mode, the linear address. -/
def dataAddr (ea : Word) (isStack : Bool) (margin : Word) (s : State) : DataAddr :=
  let b := s.bank s.mode
  let off := offsetOf ea
  match selectSegment (ea.extractLsb' 29 3) with
  | none => .refused .reservedSelector
  | some g =>
    if isStack then
      if outsideStack b off margin then .raised (.stackFault off (b.segment g)) else .address (lin (b.segment g) off)
    else if b.limit g < off then .raised (.boundsData off (b.segment g)) else .address (lin (b.segment g) off)

/-- The effective address of a load or store: the base register of the current set plus the offset, modulo 2^32 (R284,
R74, D3). Log 33. -/
def State.effectiveAddress (s : State) (base : Reg) (offset : Word) : Word := s.reg s.mode base + offset

/-- The address of a load or store with base register `base` (R80, R284): stack bounds with STACK_MARGIN for r30 and
r31, data bounds for r0 to r29. No instruction whose format the spec gives makes such an access. -/
def accessAddr (base : Reg) (ea : Word) (s : State) : DataAddr :=
  dataAddr ea (decide (30 ≤ base.toNat)) Config.stackMargin s

/-! ## Fetching -/

/-- Fetch(k): the k-th word of the instruction at pc, in the code segment of the current mode (R75). -/
def State.fetch (s : State) (k : Word) : Word := s.readWord (lin (s.bank s.mode).cs (s.pc + k))

/-- The bounds check at the first word of an instruction: pc > csl[Mode], unsigned (R76). -/
def State.pcOutOfBounds (s : State) : Bool := decide ((s.bank s.mode).csl < s.pc)

/-- Store a word where Fetch(k) reads it. -/
def State.placeWord (k : Word) (w : Word) (s : State) : State :=
  s.writeWord (lin (s.bank s.mode).cs (s.pc + k)) w

/-! ## The machine status word -/

/-- MSWimage(m): the MSW with Mode field m and the flags of mode m (R29). -/
def State.mswImage (s : State) (m : Mode) (unused : Word) : Word :=
  mswWord m.bits (s.bank m).flags s.rf s.im unused

/-- Writing the MSW: Mode, IM, RF, and the flags of the new mode; the unused bits are ignored (R29). -/
def State.writeMsw (w : Word) (s : State) : State :=
  ((s.setMode (Mode.ofBits (modeBitsOfMsw w))).setIm (imOfMsw w)).setRf (rfOfMsw w)
    |>.setFlags (Mode.ofBits (modeBitsOfMsw w)) (flagsOfMsw w)

/-! ## Traps -/

/-- The addresses of a trap frame, from its lowest effective address upward: msw, pc, cs, csl (R240). -/
structure FrameAddrs where
  msw : LinAddr
  pc : LinAddr
  cs : LinAddr
  csl : LinAddr
deriving DecidableEq, Repr

/-- The address of one push or pop of a trap sequence: a stack access of the current mode with margin 0 (R82). -/
def trapAddr (ea : Word) (s : State) : Option LinAddr :=
  match dataAddr ea true 0 s with
  | .address a => some a
  | .raised _ => none
  | .refused _ => none

/-- The four addresses of the frame whose lowest word is at `ea`, if every access passes (R82, R240, R242). -/
def trapFrame (ea : Word) (s : State) : Option FrameAddrs :=
  match trapAddr ea s, trapAddr (ea + 1) s, trapAddr (ea + 2) s, trapAddr (ea + 3) s with
  | some m, some p, some c, some l => some ⟨m, p, c, l⟩
  | _, _, _, _ => none

/-- Store a trap frame, in the order of the pushes: csl, cs, pc, msw (R240). -/
def State.writeFrame (f : FrameAddrs) (msw pc cs csl : Word) (s : State) : State :=
  (((s.writeWord f.csl csl).writeWord f.cs cs).writeWord f.pc pc).writeWord f.msw msw

/-- BrkSequence(vector, saved_pc) (R240), the one entry of every trap (R303): the interrupted mode's code segment
limit, code segment, saved pc and MSW image are captured, system mode is entered, the four words are pushed on the
system stack, and control goes to the vector entry. The addresses of the pushes do not depend on what is pushed, so
they are formed first; a push that fails leaves the machine stuck (R311). -/
def brkSequence (vector : VectorNo) (savedPc : Word) (s : State) : Result :=
  let old := s.bank s.mode
  let oldMsw := s.mswImage s.mode (Config.mswUnused s.draws)
  let t := ((s.setMode .system).setIm (s.im || Config.brkSetsIm)).tick
  let a := (t.bank .system).sp - 4
  match trapFrame a t with
  | none => .fault .faultInTrapSequence
  | some f =>
    .next ((((t.writeFrame f oldMsw savedPc old.cs old.csl).setSp .system a).setCode .system t.vcs 2047).setPc
      (vector.setWidth 32 * 4))

/-- The vector of an exception (R300, R302). -/
def Exn.vector : Exn → VectorNo
  | .priv => Config.vecPriv
  | .boundsFetch => Config.vecBounds
  | .boundsData _ _ => Config.vecBounds
  | .stackFault _ _ => Config.vecStack

/-- The fault registers an exception writes (R304). -/
def State.recordFault (e : Exn) (s : State) : State :=
  let t := s.setFaultCode s.pc (s.bank s.mode).cs
  match e with
  | .priv => t
  | .boundsFetch => t
  | .boundsData off seg => t.setFaultData off seg
  | .stackFault off seg => t.setFaultData off seg

/-- Taking an exception raised by the instruction at pc: the fault registers, then the trap entry, which saves the pc of
that instruction (R303). -/
def takeException (e : Exn) (s : State) : Result := brkSequence e.vector s.pc (s.recordFault e)

/-- The access a load or store makes with base register `base` and an offset (R284): the effective address is formed, its
segment selected and its bounds checked; a failing check takes the exception before `body`, which has the linear address,
reads or writes anything (R78, R81, R303). -/
def accessMemory (base : Reg) (offset : Word) (body : LinAddr → Result) (s : State) : Result :=
  match accessAddr base (s.effectiveAddress base offset) s with
  | .address a => body a
  | .raised e => takeException e s
  | .refused r => .refused r

/-- The privilege check: in a user mode raise Priv before any effect (R250). -/
def privileged (body : Result) (s : State) : Result := if s.mode.isUser then takeException .priv s else body

/-- The pops of RTI, made in system mode from the frame `f` whose lowest word is at ssp: ssp moves past the frame, the
MSW is written, and the code segment, its limit and pc of the mode returned to are loaded (R242). -/
def returnFromTrap (f : FrameAddrs) (s : State) : State :=
  let m := s.readWord f.msw
  let t := (s.setSp .system ((s.bank .system).sp + 4)).writeMsw m
  (t.setCode t.mode (s.readWord f.cs) (s.readWord f.csl)).setPc (s.readWord f.pc)

/-- Whether the environment delivers a hardware interrupt before the next instruction: never while IM = 1, else as it is
drawn (R305, R306). -/
def pollInterrupt (s : State) : Option VectorNo × State :=
  if s.im then (none, s) else (Config.interruptRequest s.draws, s.tick)

/-- A hardware interrupt: a forced BRK that saves the pc of the instruction not yet executed (R241, R303). -/
def takeInterrupt (vector : VectorNo) (s : State) : Result := brkSequence vector s.pc s

/-- The reset BRK: a forced BRK for the reset vector, whose saved pc is unspecified (R341, R303). -/
def resetBrk (s : State) : Result := brkSequence Config.resetVector Config.resetSavedPc s.endReset

end Sys2Proof.Machine
end

