-- ==== Sys2Proof/Machine/Operands.lean ====
section
/-! DEFINITION. Machine/Operands.lean: how an instruction's operand fields are read: immediates (30_encoding.md R125,
R126), register-set codes (43_system.md R244), special registers (10_state.md R36, R37), and the shared shapes of the
instructions that write one register. -/

namespace Sys2Proof.Machine

/-! ## Immediates and offsets -/

/-- A short immediate, sign-extended and not scaled (R125, R146). -/
def shortValue (imm : BitVec 17) : Word := imm.signExtend 32

/-- The immediate of a row that admits both forms (R146). -/
def immValue : Imm → Word
  | .short imm => shortValue imm
  | .long _ imm => imm

/-- The number of words of a row that admits both forms (R146). -/
def immWords : Imm → Word
  | .short _ => 1
  | .long _ _ => 2

/-- A 27-bit offset or segment limit, zero-extended (R128). Log 27. -/
def offset27 (v : BitVec 27) : Word := v.setWidth 32

/-- The target of a taken branch at `pc`: pc + 1 + imm, BRANCH_BASE being the next instruction (R200). Log 8. -/
def branchTarget (pc : Word) (imm : BitVec 17) : Word := pc + 1 + shortValue imm

/-! ## Registers of the current set -/

/-- x[r] (R8). -/
def State.x (s : State) (r : Reg) : Word := s.reg s.mode r

/-- x[r] <- v (R8). -/
def State.setX (r : Reg) (v : Word) (s : State) : State := s.setReg s.mode r v

/-- x[rt] <- v, then pc <- pc + n: the shape of every documented operate instruction (R160, R26). -/
def writeX (rt : Reg) (v : Word) (n : Word) (s : State) : Result := .next ((s.setX rt v).advance n)

/-- flags[Mode] <- CmpFlags(a, b), with the odd flag drawn, then pc <- pc + n (R141, R148). -/
def compareX (a b : Word) (n : Word) (s : State) : Result :=
  .next (((s.setFlags s.mode (compareFlags a b (Config.cmpOddFlag s.draws a b))).tick).advance n)

/-- A map-only instruction with an inferred meaning: the meaning where ADMIT_INFERRED is set and the word has the
inferred format, else a refusal (92_eei_decisions.md D26). Log 7, log 21. -/
def inferred (inFormat : Bool) (meaning : Result) : Result :=
  if Config.admitInferred && inFormat then meaning else .refused .mapOnlyInstruction

/-! ## Register-set codes -/

/-- Set(code): codes 0 to 3 are the sets of modes 0 to 3, 7 is the current set, 4 to 6 are reserved (R244). -/
def setOf (code : BitVec 3) (current : Mode) : Option Mode :=
  if code = 0#3 then some .user1 else if code = 1#3 then some .user2 else if code = 2#3 then some .system
  else if code = 3#3 then some .debug else if code = 7#3 then some current else none

/-! ## Special registers -/

/-- The registers of a set that have a special-register number for each mode (R36). -/
inductive BankReg where
  | ds
  | dsl
  | sl
  | su
  | sp
  | cs
  | csl
  | es
  | esl
  | fs
  | fsl
  | gs
  | gsl
deriving DecidableEq, Repr

/-- Read one of them. -/
def Bank.special (b : Bank) : BankReg → Word
  | .ds => b.ds
  | .dsl => b.dsl
  | .sl => b.sl
  | .su => b.su
  | .sp => b.sp
  | .cs => b.cs
  | .csl => b.csl
  | .es => b.es
  | .esl => b.esl
  | .fs => b.fs
  | .fsl => b.fsl
  | .gs => b.gs
  | .gsl => b.gsl

/-- The state a special-register number names (R36). -/
inductive Spr where
  | vcs
  | msw
  | banked (r : BankReg) (m : Mode)
  | current (r : BankReg)
  | faultPc
  | faultCs
  | faultAddr
  | faultSeg
deriving DecidableEq, Repr

/-- The register that a group of four numbers, 4g to 4g + 3, holds one copy of for each mode (R36). -/
def sprBanked (g : BitVec 5) : Option BankReg :=
  if g = 0x02#5 then some .ds else if g = 0x03#5 then some .dsl else if g = 0x04#5 then some .sl
  else if g = 0x05#5 then some .su else if g = 0x06#5 then some .sp else if g = 0x08#5 then some .cs
  else if g = 0x09#5 then some .csl else if g = 0x0A#5 then some .es else if g = 0x0B#5 then some .esl
  else if g = 0x0C#5 then some .fs else if g = 0x0D#5 then some .fsl else if g = 0x0E#5 then some .gs
  else if g = 0x0F#5 then some .gsl else none

/-- The special registers outside those groups (R36, R37). -/
def sprSingle (n : BitVec 7) : Option Spr :=
  if n = 0x02#7 then some .vcs else if n = 0x03#7 then some .msw
  else if n = 0x40#7 then some (.current .ds) else if n = 0x41#7 then some (.current .dsl)
  else if n = 0x42#7 then some (.current .cs) else if n = 0x43#7 then some (.current .csl)
  else if n = 0x44#7 then some (.current .es) else if n = 0x45#7 then some (.current .esl)
  else if n = 0x46#7 then some (.current .fs) else if n = 0x47#7 then some (.current .fsl)
  else if n = 0x48#7 then some (.current .gs) else if n = 0x49#7 then some (.current .gsl)
  else if n = 0x4A#7 then some (.current .sl) else if n = 0x4B#7 then some (.current .su)
  else if n = 0x50#7 then some .faultPc else if n = 0x51#7 then some .faultCs
  else if n = 0x52#7 then some .faultAddr else if n = 0x53#7 then some .faultSeg else none

/-- The named register of a special-register number, or none (R36). -/
def sprOf (n : BitVec 7) : Option Spr :=
  match sprBanked (n.extractLsb' 2 5) with
  | some r => some (.banked r (Mode.ofBits (n.extractLsb' 0 2)))
  | none => sprSingle n

/-- The value a special register reads as; the unused bits of the MSW are those of `unused` (R36, R37, R245). -/
def State.readSpr (s : State) (unused : Word) : Spr → Word
  | .vcs => s.vcs
  | .msw => s.mswImage s.mode unused
  | .banked r m => (s.bank m).special r
  | .current r => (s.bank s.mode).special r
  | .faultPc => s.faultPc
  | .faultCs => s.faultCs
  | .faultAddr => s.faultAddr
  | .faultSeg => s.faultSeg

end Sys2Proof.Machine
end

