-- ==== Sys2Proof/Machine/Branch.lean ====
section
/-! DEFINITION. Machine/Branch.lean: the conditional branches (42_control_transfer.md R200 to R228). A branch writes pc
alone; the target is checked when the instruction there is fetched. -/

namespace Sys2Proof.Machine

/-- Bcc: pc <- pc + 1 + imm if taken, else pc + 1 (R200). -/
def branch (taken : Bool) (imm : BitVec 17) (s : State) : Result :=
  .next (s.setPc (if taken then branchTarget s.pc imm else s.pc + 1))

/-- flags[Mode] (R201). -/
def State.flags (s : State) : Flags := (s.bank s.mode).flags

/-- A Bcc word with the long-immediate pattern: whether the pattern applies to branches is not stated (R200, D13). -/
def execBccLong (_ : State) : Result := .refused .bccLongImmediatePattern

/-- BSR: where the return address goes is not stated; it must not execute as BRA (R203). -/
def execBsr (_ : State) : Result := .refused .bsrLinkUnspecified

/-- BRA: always (R202). -/
def execBra (imm : BitVec 17) (s : State) : Result := branch true imm s

/-- BHI: higher, !cf & !zf (R204). -/
def execBhi (imm : BitVec 17) (s : State) : Result := branch s.flags.higher imm s

/-- BLS: lower or same, cf | zf (R205). -/
def execBls (imm : BitVec 17) (s : State) : Result := branch s.flags.lowerOrSame imm s

/-- BHS: higher or same, !cf (R206). -/
def execBhs (imm : BitVec 17) (s : State) : Result := branch (!s.flags.cf) imm s

/-- BLO: lower, cf (R207). -/
def execBlo (imm : BitVec 17) (s : State) : Result := branch s.flags.cf imm s

/-- BNE: not equal, !zf (R208). -/
def execBne (imm : BitVec 17) (s : State) : Result := branch (!s.flags.zf) imm s

/-- BEQ: equal, zf (R209). -/
def execBeq (imm : BitVec 17) (s : State) : Result := branch s.flags.zf imm s

/-- BVC: overflow clear, !vf (R210). -/
def execBvc (imm : BitVec 17) (s : State) : Result := branch (!s.flags.vf) imm s

/-- BVS: overflow set, vf (R211). -/
def execBvs (imm : BitVec 17) (s : State) : Result := branch s.flags.vf imm s

/-- BPL: plus, !nf (R212). -/
def execBpl (imm : BitVec 17) (s : State) : Result := branch (!s.flags.nf) imm s

/-- BMI: minus, nf (R213). -/
def execBmi (imm : BitVec 17) (s : State) : Result := branch s.flags.nf imm s

/-- BGE: signed greater or equal (R214). -/
def execBge (imm : BitVec 17) (s : State) : Result := branch s.flags.greaterOrEqual imm s

/-- BLT: signed less than (R215). -/
def execBlt (imm : BitVec 17) (s : State) : Result := branch s.flags.less imm s

/-- BGT: signed greater than, by the corrected formula (R216). -/
def execBgt (imm : BitVec 17) (s : State) : Result := branch s.flags.greater imm s

/-- BLE: signed less than or equal (R217). -/
def execBle (imm : BitVec 17) (s : State) : Result := branch s.flags.lessOrEqual imm s

/-- BEV: even, !of (R218). -/
def execBev (imm : BitVec 17) (s : State) : Result := branch (!s.flags.odd) imm s

/-- BOD: odd, of (R219). -/
def execBod (imm : BitVec 17) (s : State) : Result := branch s.flags.odd imm s

/-- BPO: positive, !nf & !zf (R220). -/
def execBpo (imm : BitVec 17) (s : State) : Result := branch s.flags.positive imm s

/-- BRZ: the register is zero (R221). -/
def execBrz (imm : BitVec 17) (ra : Reg) (s : State) : Result := branch (s.x ra == 0#32) imm s

/-- BNZ: the register is not zero (R222). -/
def execBnz (imm : BitVec 17) (ra : Reg) (s : State) : Result := branch (s.x ra != 0#32) imm s

/-- BRP: bit 31 of the register is 0 (R223). -/
def execBrp (imm : BitVec 17) (ra : Reg) (s : State) : Result := branch (!(s.x ra).msb) imm s

/-- BRN: bit 31 of the register is 1 (R224). -/
def execBrn (imm : BitVec 17) (ra : Reg) (s : State) : Result := branch (s.x ra).msb imm s

/-- BXC: the external signal, drawn when the branch executes, is clear (R225, R39). Log 10. -/
def execBxc (imm : BitVec 17) (s : State) : Result := branch (!Config.externalSignal s.draws) imm s.tick

/-- BXS: the external signal, drawn when the branch executes, is set (R226, R39). Log 10. -/
def execBxs (imm : BitVec 17) (s : State) : Result := branch (Config.externalSignal s.draws) imm s.tick

/-- BRC: the reservation flag is clear (R227). -/
def execBrc (imm : BitVec 17) (s : State) : Result := branch (!s.rf) imm s

/-- BRS: the reservation flag is set (R228). -/
def execBrs (imm : BitVec 17) (s : State) : Result := branch s.rf imm s

end Sys2Proof.Machine
end

