-- ==== Sys2Proof/Machine/Immediate.lean ====
section
/-! DEFINITION. Machine/Immediate.lean: the immediate-operate instructions and NOP (40_immediate_operate.md). None is
privileged, none raises an exception of its own, and only the compare writes flags (R147, R149; log 18). -/

namespace Sys2Proof.Machine

/-- ADDI, short form: x[Rt] <- x[Ra] + imm modulo 2^32 (R140). -/
def execAddi (rt ra : Reg) (imm : BitVec 17) (s : State) : Result := writeX rt (s.x ra + shortValue imm) 1 s

/-- ADDI, long form; the X11 field is ignored (R114, R140). -/
def execAddiL (rt ra : Reg) (imm : Word) (s : State) : Result := writeX rt (s.x ra + imm) 2 s

/-- CMPI, short form: flags[Mode] <- CmpFlags(x[Ra], imm) (R141). -/
def execCmpi (ra : Reg) (imm : BitVec 17) (s : State) : Result := compareX (s.x ra) (shortValue imm) 1 s

/-- CMPI, long form (R114, R141). -/
def execCmpiL (ra : Reg) (imm : Word) (s : State) : Result := compareX (s.x ra) imm 2 s

/-- ANDI, short form; the immediate is sign-extended (R142). -/
def execAndi (rt ra : Reg) (imm : BitVec 17) (s : State) : Result := writeX rt (s.x ra &&& shortValue imm) 1 s

/-- ANDI, long form (R114, R142). -/
def execAndiL (rt ra : Reg) (imm : Word) (s : State) : Result := writeX rt (s.x ra &&& imm) 2 s

/-- ORI, both forms, by its inferred meaning (R143). Log 7. -/
def execOri (rt ra : Reg) (imm : Imm) (s : State) : Result :=
  inferred true (writeX rt (s.x ra ||| immValue imm) (immWords imm) s)

/-- EORI, both forms, by its inferred meaning (R144). Log 7. -/
def execEori (rt ra : Reg) (imm : Imm) (s : State) : Result :=
  inferred true (writeX rt (s.x ra ^^^ immValue imm) (immWords imm) s)

/-- NOP, by its inferred meaning: the word 0x00000001 only advances pc (R145). Log 7, log 21. -/
def execNop (rest : BitVec 27) (s : State) : Result := inferred (rest == 0#27) (.next (s.advance 1))

end Sys2Proof.Machine
end

