-- ==== Sys2Proof/Machine/Jump.lean ====
section
/-! DEFINITION. Machine/Jump.lean: the jumps (42_control_transfer.md R230 to R235). -/

namespace Sys2Proof.Machine

/-- JMP: pc <- the 27-bit offset, zero-extended (R230). -/
def execJmp (offset : BitVec 27) (s : State) : Result := .next (s.setPc (offset27 offset))

/-- JMF: privileged; then the unused field of the third word, then Ts, which must name the current set; then cs, csl and
pc are loaded (R232). Log 20, log 26. -/
def execJmf (offset : BitVec 27) (segment : Word) (ts : BitVec 3) (u : BitVec 2) (limit : BitVec 27) (s : State) :
    Result :=
  privileged
    (if u ≠ 0#2 then .refused .nonzeroUnusedField
     else if setOf ts s.mode = some s.mode then
       .next ((s.setCode s.mode segment (offset27 limit)).setPc (offset27 offset))
     else .refused .jmfTsUnspecified) s

/-- JSR, major opcode 11h: no operand format and no operation in the spec (R231). -/
def execJsr (_ : State) : Result := .refused .mapOnlyInstruction

/-- JMP of the register group: no operand format and no operation in the spec (R233). -/
def execJmpr (_ : State) : Result := .refused .mapOnlyInstruction

/-- JSR of the register group: no operand format and no operation in the spec (R234). -/
def execJsrr (_ : State) : Result := .refused .mapOnlyInstruction

/-- RTS: no operand format and no operation in the spec (R235). -/
def execRts (_ : State) : Result := .refused .mapOnlyInstruction

end Sys2Proof.Machine
end

