-- ==== Sys2Proof/Machine/LoadStore.lean ====
section
/-! DEFINITION. Machine/LoadStore.lean: LD, LDAR, ST, STCR (44_load_store.md R280 to R283): the spec gives their numbers
and, in R284, the address procedure they obey (`accessMemory`), but no operand format and no operation. -/

namespace Sys2Proof.Machine

/-- LD: no operand format and no operation in the spec (R280). -/
def execLd (_ : State) : Result := .refused .mapOnlyInstruction

/-- LDAR: no operand format and no operation in the spec (R281). -/
def execLdar (_ : State) : Result := .refused .mapOnlyInstruction

/-- ST: no operand format and no operation in the spec (R282). -/
def execSt (_ : State) : Result := .refused .mapOnlyInstruction

/-- STCR: no operand format and no operation in the spec (R283). -/
def execStcr (_ : State) : Result := .refused .mapOnlyInstruction

end Sys2Proof.Machine
end

