-- ==== Sys2Proof/Machine/Register.lean ====
section
/-! DEFINITION. Machine/Register.lean: the register-operate group (41_register_operate.md). The instructions with a
meaning are one word long, unprivileged, and but for CMP leave every flag as it was (R160; log 18). -/

namespace Sys2Proof.Machine

/-- ADD: x[Rt] <- x[Ra] + x[Rb] modulo 2^32 (R164). -/
def execAdd (rt rb ra : Reg) (s : State) : Result := writeX rt (s.x ra + s.x rb) 1 s

/-- AND: x[Rt] <- x[Ra] & x[Rb] (R167). -/
def execAnd (rt rb ra : Reg) (s : State) : Result := writeX rt (s.x ra &&& s.x rb) 1 s

/-- SEG: x[Rt] <- (Imm3, x[Ra][28:0]) (R181, 90_conflicts.md C3). -/
def execSeg (rt : Reg) (imm3 : BitVec 3) (ra : Reg) (s : State) : Result :=
  writeX rt (imm3 ++ (s.x ra).extractLsb' 0 29) 1 s

/-! ## By their inferred meaning (92_eei_decisions.md D26; log 7, log 21) -/

/-- SUB: x[Rt] <- x[Ra] - x[Rb] modulo 2^32 (R165). -/
def execSub (u : BitVec 7) (rt rb ra : Reg) (s : State) : Result :=
  inferred (u == 0#7) (writeX rt (s.x ra - s.x rb) 1 s)

/-- CMP: flags[Mode] <- CmpFlags(x[Ra], x[Rb]) (R166). -/
def execCmp (u : BitVec 7) (ut : BitVec 5) (rb ra : Reg) (s : State) : Result :=
  inferred (u == 0#7 && ut == 0#5) (compareX (s.x ra) (s.x rb) 1 s)

/-- OR: x[Rt] <- x[Ra] | x[Rb] (R168). -/
def execOr (u : BitVec 7) (rt rb ra : Reg) (s : State) : Result :=
  inferred (u == 0#7) (writeX rt (s.x ra ||| s.x rb) 1 s)

/-- EOR: x[Rt] <- x[Ra] ^ x[Rb] (R169). -/
def execEor (u : BitVec 7) (rt rb ra : Reg) (s : State) : Result :=
  inferred (u == 0#7) (writeX rt (s.x ra ^^^ s.x rb) 1 s)

/-- NAND: x[Rt] <- ~(x[Ra] & x[Rb]) (R171). -/
def execNand (u : BitVec 7) (rt rb ra : Reg) (s : State) : Result :=
  inferred (u == 0#7) (writeX rt (~~~(s.x ra &&& s.x rb)) 1 s)

/-- NOR: x[Rt] <- ~(x[Ra] | x[Rb]) (R172). -/
def execNor (u : BitVec 7) (rt rb ra : Reg) (s : State) : Result :=
  inferred (u == 0#7) (writeX rt (~~~(s.x ra ||| s.x rb)) 1 s)

/-- ENOR: x[Rt] <- ~(x[Ra] ^ x[Rb]) (R173). -/
def execEnor (u : BitVec 7) (rt rb ra : Reg) (s : State) : Result :=
  inferred (u == 0#7) (writeX rt (~~~(s.x ra ^^^ s.x rb)) 1 s)

/-! ## Known by name and number only -/

/-- NOT: no operand format and no operation in the spec (R161). -/
def execNot (_ : State) : Result := .refused .mapOnlyInstruction

/-- NEG: no operand format and no operation in the spec (R162). -/
def execNeg (_ : State) : Result := .refused .mapOnlyInstruction

/-- COM: no operand format and no operation in the spec (R163). -/
def execCom (_ : State) : Result := .refused .mapOnlyInstruction

/-- ANDC: no operand format and no operation in the spec (R170). -/
def execAndc (_ : State) : Result := .refused .mapOnlyInstruction

/-- ORC: no operand format and no operation in the spec (R174). -/
def execOrc (_ : State) : Result := .refused .mapOnlyInstruction

/-- SHLI: no operand format and no operation in the spec (R175). -/
def execShli (_ : State) : Result := .refused .mapOnlyInstruction

/-- SHRI: no operand format and no operation in the spec (R176). -/
def execShri (_ : State) : Result := .refused .mapOnlyInstruction

/-- SHL: no operand format and no operation in the spec (R177). -/
def execShl (_ : State) : Result := .refused .mapOnlyInstruction

/-- SHR: no operand format and no operation in the spec (R178). -/
def execShr (_ : State) : Result := .refused .mapOnlyInstruction

/-- ASRI: no operand format and no operation in the spec (R179). -/
def execAsri (_ : State) : Result := .refused .mapOnlyInstruction

/-- ASR: no operand format and no operation in the spec (R180). -/
def execAsr (_ : State) : Result := .refused .mapOnlyInstruction

/-- EXS: no operand format and no operation in the spec (R182). -/
def execExs (_ : State) : Result := .refused .mapOnlyInstruction

/-- EXL: no operand format and no operation in the spec (R183). -/
def execExl (_ : State) : Result := .refused .mapOnlyInstruction

end Sys2Proof.Machine
end

