-- ==== Sys2Proof/Machine/System.lean ====
section
/-! DEFINITION. Machine/System.lean: BRK, RTI, MOV, MFSPR, MTSPR and DBG (43_system.md). -/

namespace Sys2Proof.Machine

/-- BRK: BrkSequence with the vector field; the saved pc is that of the next instruction (R240). -/
def execBrk (vector : VectorNo) (s : State) : Result := brkSequence vector (s.pc + 1) s

/-- RTI: privileged, refused in debug mode; the source register is read in the system set, the frame is popped, and the
register transfer in the set of the mode returned to is the last write (R242). Log 26. -/
def execRti (rt ra : Reg) (s : State) : Result :=
  privileged
    (if s.mode = .debug then .refused .rtiInDebugMode
     else
       match trapFrame (s.bank .system).sp s with
       | none => .fault .faultInTrapSequence
       | some f =>
         let t := returnFromTrap f s
         .next (t.setReg t.mode rt (s.x ra))) s

/-- The moves between sets a mode may make: in a user mode from the current set to the current or the system set
(R243, D24). Log 25. -/
def movAdmitted (source target current : Mode) : Bool :=
  !current.isUser || (source == current && (target == current || target == .system))

/-- MOV: xs[t][Rt] <- xs[s][Ra] (R243). -/
def execMov (ts : BitVec 3) (rt : Reg) (ss : BitVec 3) (ra : Reg) (s : State) : Result :=
  match setOf ss s.mode, setOf ts s.mode with
  | some source, some target =>
    if movAdmitted source target s.mode then .next ((s.setReg target rt (s.reg source ra)).advance 1)
    else .refused .movPrivilegeUnspecified
  | _, _ => .refused .reservedSetCode

/-- MFSPR: privileged; x[Rt] <- the special register; a number with no named register is refused. Reading the MSW draws
its unused bits (R245, R29). Log 12, log 20. -/
def execMfspr (spr : BitVec 7) (rt : Reg) (s : State) : Result :=
  privileged
    (match sprOf spr with
     | none => .refused .unlistedSpr
     | some r => writeX rt (s.readSpr (Config.mswUnused s.draws) r) 1 (if r = .msw then s.tick else s)) s

/-- MTSPR: no operand format and no operation in the spec (R246). -/
def execMtspr (_ : State) : Result := .refused .mapOnlyInstruction

/-- DBG: "may" enter debug mode; what it saves, where it vectors and how it is left are not stated (R247). -/
def execDbg (_ : State) : Result := .refused .mapOnlyInstruction

end Sys2Proof.Machine
end

