-- ==== Sys2Proof/Machine/Dispatch.lean ====
section
/-! DEFINITION. Machine/Dispatch.lean: one arm for each instruction. -/

namespace Sys2Proof.Machine

def exec (i : Instr) (s : State) : Host.Outcome State Fault Refusal :=
  match i with
  | .brk vector => Sys2Proof.Machine.execBrk vector s
  | .nop rest => Sys2Proof.Machine.execNop rest s
  | .bccLong _ _ _ => Sys2Proof.Machine.execBccLong s
  | .bra imm _ => Sys2Proof.Machine.execBra imm s
  | .bsr _ _ => Sys2Proof.Machine.execBsr s
  | .bhi imm _ => Sys2Proof.Machine.execBhi imm s
  | .bls imm _ => Sys2Proof.Machine.execBls imm s
  | .bhs imm _ => Sys2Proof.Machine.execBhs imm s
  | .blo imm _ => Sys2Proof.Machine.execBlo imm s
  | .bne imm _ => Sys2Proof.Machine.execBne imm s
  | .beq imm _ => Sys2Proof.Machine.execBeq imm s
  | .bvc imm _ => Sys2Proof.Machine.execBvc imm s
  | .bvs imm _ => Sys2Proof.Machine.execBvs imm s
  | .bpl imm _ => Sys2Proof.Machine.execBpl imm s
  | .bmi imm _ => Sys2Proof.Machine.execBmi imm s
  | .bge imm _ => Sys2Proof.Machine.execBge imm s
  | .blt imm _ => Sys2Proof.Machine.execBlt imm s
  | .bgt imm _ => Sys2Proof.Machine.execBgt imm s
  | .ble imm _ => Sys2Proof.Machine.execBle imm s
  | .bev imm _ => Sys2Proof.Machine.execBev imm s
  | .bod imm _ => Sys2Proof.Machine.execBod imm s
  | .bpo imm _ => Sys2Proof.Machine.execBpo imm s
  | .brz imm ra => Sys2Proof.Machine.execBrz imm ra s
  | .bnz imm ra => Sys2Proof.Machine.execBnz imm ra s
  | .brp imm ra => Sys2Proof.Machine.execBrp imm ra s
  | .brn imm ra => Sys2Proof.Machine.execBrn imm ra s
  | .bxc imm _ => Sys2Proof.Machine.execBxc imm s
  | .bxs imm _ => Sys2Proof.Machine.execBxs imm s
  | .brc imm _ => Sys2Proof.Machine.execBrc imm s
  | .brs imm _ => Sys2Proof.Machine.execBrs imm s
  | .addiL rt ra _ imm => Sys2Proof.Machine.execAddiL rt ra imm s
  | .addi rt ra imm => Sys2Proof.Machine.execAddi rt ra imm s
  | .cmpiL ra _ imm => Sys2Proof.Machine.execCmpiL ra imm s
  | .cmpi ra imm => Sys2Proof.Machine.execCmpi ra imm s
  | .andiL rt ra _ imm => Sys2Proof.Machine.execAndiL rt ra imm s
  | .andi rt ra imm => Sys2Proof.Machine.execAndi rt ra imm s
  | .ori rt ra imm => Sys2Proof.Machine.execOri rt ra imm s
  | .eori rt ra imm => Sys2Proof.Machine.execEori rt ra imm s
  | .jmp offset => Sys2Proof.Machine.execJmp offset s
  | .jsr _ => Sys2Proof.Machine.execJsr s
  | .jmf offset segment ts u limit => Sys2Proof.Machine.execJmf offset segment ts u limit s
  | .ld _ => Sys2Proof.Machine.execLd s
  | .ldar _ => Sys2Proof.Machine.execLdar s
  | .st _ => Sys2Proof.Machine.execSt s
  | .stcr _ => Sys2Proof.Machine.execStcr s
  | .notr _ => Sys2Proof.Machine.execNot s
  | .neg _ => Sys2Proof.Machine.execNeg s
  | .com _ => Sys2Proof.Machine.execCom s
  | .mov ts rt ss ra => Sys2Proof.Machine.execMov ts rt ss ra s
  | .add rt rb ra => Sys2Proof.Machine.execAdd rt rb ra s
  | .sub u rt rb ra => Sys2Proof.Machine.execSub u rt rb ra s
  | .cmp u ut rb ra => Sys2Proof.Machine.execCmp u ut rb ra s
  | .andr rt rb ra => Sys2Proof.Machine.execAnd rt rb ra s
  | .orr u rt rb ra => Sys2Proof.Machine.execOr u rt rb ra s
  | .eor u rt rb ra => Sys2Proof.Machine.execEor u rt rb ra s
  | .andc _ => Sys2Proof.Machine.execAndc s
  | .nand u rt rb ra => Sys2Proof.Machine.execNand u rt rb ra s
  | .nor u rt rb ra => Sys2Proof.Machine.execNor u rt rb ra s
  | .enor u rt rb ra => Sys2Proof.Machine.execEnor u rt rb ra s
  | .orc _ => Sys2Proof.Machine.execOrc s
  | .jmpr _ => Sys2Proof.Machine.execJmpr s
  | .jsrr _ => Sys2Proof.Machine.execJsrr s
  | .rts _ => Sys2Proof.Machine.execRts s
  | .rti rt ra => Sys2Proof.Machine.execRti rt ra s
  | .shli _ => Sys2Proof.Machine.execShli s
  | .shri _ => Sys2Proof.Machine.execShri s
  | .shl _ => Sys2Proof.Machine.execShl s
  | .shr _ => Sys2Proof.Machine.execShr s
  | .asri _ => Sys2Proof.Machine.execAsri s
  | .asr _ => Sys2Proof.Machine.execAsr s
  | .mtspr _ => Sys2Proof.Machine.execMtspr s
  | .mfspr spr rt => Sys2Proof.Machine.execMfspr spr rt s
  | .dbg _ => Sys2Proof.Machine.execDbg s
  | .seg rt imm3 ra => Sys2Proof.Machine.execSeg rt imm3 ra s
  | .exs _ => Sys2Proof.Machine.execExs s
  | .exl _ => Sys2Proof.Machine.execExl s

end Sys2Proof.Machine
end

