-- ==== Sys2Proof/Machine/Step.lean ====
section
/-! DEFINITION. Machine/Step.lean: one step of the core, in the order of 60_exceptions.md R308, and where a program's
first instruction is placed. -/

namespace Sys2Proof.Machine

/-- The instruction at pc, or the refusal of its word (R75, R133). -/
def State.decodeNext (s : State) : Decoded := decode (s.fetch 0) (s.fetch 1) (s.fetch 2)

/-- The instruction at pc: its bounds check (R76), its decoding (R133), its meaning. -/
def runInstruction (s : State) : Result :=
  if s.pcOutOfBounds then takeException .boundsFetch s
  else
    match s.decodeNext with
    | .ok i => exec i s
    | .error r => .refused r

/-- One step: the reset BRK if it has not run (R341), else a hardware interrupt if one is delivered (R305), else the
instruction at pc (R308). -/
def step (s : State) : Result :=
  if s.resetPending then resetBrk s
  else
    match pollInterrupt s with
    | (some v, t) => takeInterrupt v t
    | (none, t) => runInstruction t

/-- The instruction whose bits are `w` stored at the pc of the current mode's code segment, its words in ascending
order (R77), with the words after it zero up to the longest instruction, so that the next step runs it: the reset BRK
counts as done, interrupts are masked, and a code limit below pc is raised to pc. From `State.reset` only the first of
these three changes anything. Log 4, log 30. -/
def State.withFetchWord (s : State) (nbits w : Nat) : State :=
  let v := w % 2 ^ nbits
  let b := s.bank s.mode
  ((((s.setCode s.mode b.cs (if b.csl < s.pc then s.pc else b.csl)).setIm true).endReset.placeWord 0
    (BitVec.ofNat 32 v)).placeWord 1 (BitVec.ofNat 32 (v >>> 32))).placeWord 2 (BitVec.ofNat 32 (v >>> 64))

end Sys2Proof.Machine
end

