-- ==== Sys2Proof/Safety.lean ====
section
/-! DEFINITION. Safety.lean: the terms statements are made in: what it is to complete, what an instruction leaves
unchanged, the invariant of the machine, where a trap frame lies on the system stack, and what taking a trap leaves. -/

namespace Sys2Proof.Machine

/-- The answer is a next state. -/
def Completes (r : Result) : Prop := ∃ t, r = .next t

/-- The invariant every step keeps: memory is in its canonical form (10_state.md R41). -/
def State.Inv (s : State) : Prop := s.mem.wf = true

/-! ## What is left unchanged -/

/-- Every general register of every set that `changed` does not name reads as before. -/
def SameRegs (changed : Mode → Reg → Prop) (s t : State) : Prop :=
  ∀ m r, ¬ changed m r → t.reg m r = s.reg m r

/-- The flags of every mode that `changed` does not name are as before. -/
def SameFlags (changed : Mode → Prop) (s t : State) : Prop :=
  ∀ m, ¬ changed m → (t.bank m).flags = (s.bank m).flags

/-- Every segment, limit and stack-bound register of every mode that `changed` does not name reads as before. The stack
pointers are general registers and stand under `SameRegs`. -/
def SameSegments (changed : Mode → BankReg → Prop) (s t : State) : Prop :=
  ∀ m k, k ≠ .sp → ¬ changed m k → (t.bank m).special k = (s.bank m).special k

/-- Mode, IM and RF are as before. -/
def SameStatus (s t : State) : Prop := t.mode = s.mode ∧ t.im = s.im ∧ t.rf = s.rf

/-- VCS is as before, and the reset BRK has run or not as before. -/
def SameVcs (s t : State) : Prop := t.vcs = s.vcs ∧ t.resetPending = s.resetPending

/-- The four fault registers are as before. -/
def SameFaultRegs (s t : State) : Prop :=
  t.faultPc = s.faultPc ∧ t.faultCs = s.faultCs ∧ t.faultAddr = s.faultAddr ∧ t.faultSeg = s.faultSeg

/-- Every memory location that `stored` does not name reads as before. -/
def SameMemory (stored : LinAddr → Prop) (s t : State) : Prop :=
  ∀ a, ¬ stored a → t.readWord a = s.readWord a

/-- No register, flag, segment register or memory location. -/
def nowhere {α : Type} (_ : α) : Prop := False

/-- No register of any mode. -/
def nowhere2 {α β : Type} (_ : α) (_ : β) : Prop := False

/-- Nothing but pc (and the draw counter) changes. -/
def OnlyPcChanges (s t : State) : Prop :=
  SameRegs nowhere2 s t ∧ SameFlags nowhere s t ∧ SameSegments nowhere2 s t ∧ SameStatus s t ∧ SameVcs s t ∧
    SameFaultRegs s t ∧ SameMemory nowhere s t

/-- Register `r` of set `m` receives `v` (nothing, where `r` is r0) and nothing else but pc changes. -/
def OnlyRegChanges (m : Mode) (r : Reg) (v : Word) (s t : State) : Prop :=
  t.reg m r = (if r = 0#5 then 0 else v) ∧ SameRegs (fun k q => k = m ∧ q = r) s t ∧ SameFlags nowhere s t ∧
    SameSegments nowhere2 s t ∧ SameStatus s t ∧ SameVcs s t ∧ SameFaultRegs s t ∧ SameMemory nowhere s t

/-- The flags of mode `m` alone, and pc, change. -/
def OnlyFlagsChange (m : Mode) (s t : State) : Prop :=
  SameRegs nowhere2 s t ∧ SameFlags (fun k => k = m) s t ∧ SameSegments nowhere2 s t ∧ SameStatus s t ∧
    SameVcs s t ∧ SameFaultRegs s t ∧ SameMemory nowhere s t

/-! ## Trap entry -/

/-- The selectors that name a segment, and the segment value each names in a register set (20_memory.md R72). -/
def selectorRows : List (Nat × (Bank → Word)) :=
  [(0, Bank.ds), (1, Bank.es), (2, Bank.fs), (3, Bank.gs), (4, Bank.cs), (7, Bank.ds)]

/-- A push or pop of a trap sequence at the effective address `ea` is the access of location `a`: the upper three bits
of `ea` name a segment of the system set, its lower 29 bits lie within the stack bounds of that set, with margin 0, and
`a` is segment * 4096 + offset modulo 2^44 (20_memory.md R71, R72, R81, R82). -/
def State.StackWordAt (s : State) (ea : Word) (a : LinAddr) : Prop :=
  ∃ row ∈ selectorRows, ea.toNat / 2 ^ 29 = row.1 ∧ (s.bank .system).sl.toNat ≤ ea.toNat % 2 ^ 29 ∧
    ea.toNat % 2 ^ 29 ≤ (s.bank .system).su.toNat ∧
    a.toNat = ((row.2 (s.bank .system)).toNat * 4096 + ea.toNat % 2 ^ 29) % 2 ^ 44

/-- The trap frame whose lowest word is at the effective address `ea` of the system stack occupies the locations `f`:
msw, pc, cs and csl at `ea` to `ea + 3` modulo 2^32 (43_system.md R240, R242). -/
def State.FrameAt (s : State) (ea : Word) (f : FrameAddrs) : Prop :=
  s.StackWordAt ea f.msw ∧ s.StackWordAt (ea + 1) f.pc ∧ s.StackWordAt (ea + 2) f.cs ∧ s.StackWordAt (ea + 3) f.csl

/-- The frame that a trap from `s` pushes occupies the locations `f`. -/
def State.PushesFrame (s : State) (f : FrameAddrs) : Prop := s.FrameAt (s.reg .system 31#5 - 4) f

/-- The location is one of the four of the frame. -/
def FrameAddrs.Holds (f : FrameAddrs) (a : LinAddr) : Prop := a = f.msw ∨ a = f.pc ∨ a = f.cs ∨ a = f.csl

/-- The word is the MSW image with the given mode number, flags, RF and IM in its defined bits (10_state.md R29): the
unused bits 31..10 and 5 hold any value. -/
def IsMswImage (w : Word) (mode : BitVec 2) (f : Flags) (rf im : Bool) : Prop :=
  w.extractLsb' 8 2 = mode ∧ w.getLsbD 7 = f.nf ∧ w.getLsbD 6 = f.vf ∧ w.getLsbD 4 = rf ∧ w.getLsbD 3 = f.odd ∧
    w.getLsbD 2 = im ∧ w.getLsbD 1 = f.zf ∧ w.getLsbD 0 = f.cf

/-- What BrkSequence(vector, savedPc) from `s` with the frame `f` leaves in `t` (43_system.md R240): the frame holds msw,
pc, cs and csl of the interrupted mode; system mode, ssp four lower, csl 2047, cs = vcs, pc = vector * 4; IM as it was or
set; everything else as before. -/
def TrapTaken (vector : VectorNo) (savedPc : Word) (f : FrameAddrs) (s t : State) : Prop :=
  IsMswImage (t.readWord f.msw) s.mode.bits (s.bank s.mode).flags s.rf s.im ∧ t.readWord f.pc = savedPc ∧
    t.readWord f.cs = (s.bank s.mode).cs ∧ t.readWord f.csl = (s.bank s.mode).csl ∧ SameMemory f.Holds s t ∧
    t.mode = .system ∧ t.reg .system 31#5 = s.reg .system 31#5 - 4 ∧ (t.bank .system).csl = 2047 ∧
    (t.bank .system).cs = s.vcs ∧ t.pc.toNat = vector.toNat * 4 ∧ t.rf = s.rf ∧ (t.im = s.im ∨ t.im = true) ∧
    SameRegs (fun m r => m = .system ∧ r = 31#5) s t ∧ SameFlags nowhere s t ∧
    SameSegments (fun m k => m = .system ∧ (k = .cs ∨ k = .csl)) s t ∧ SameVcs s t

/-- The exception with the given vector is taken from `s` with the frame `f`: the trap entry saves the pc of the
instruction that raised it, and fault_pc and fault_cs record where that was (60_exceptions.md R303, R304). -/
def ExceptionTaken (vector : VectorNo) (f : FrameAddrs) (s t : State) : Prop :=
  TrapTaken vector s.pc f s t ∧ t.faultPc = s.pc ∧ t.faultCs = (s.bank s.mode).cs

/-- fault_addr and fault_seg are as before. -/
def SameFaultData (s t : State) : Prop := t.faultAddr = s.faultAddr ∧ t.faultSeg = s.faultSeg

/-- A push or pop at `ea` fails: its selector is reserved, or its offset lies outside the stack bounds of the system set
with margin 0 (20_memory.md R73, R82). -/
def State.StackAccessFails (s : State) (ea : Word) : Prop :=
  ea.toNat / 2 ^ 29 = 5 ∨ ea.toNat / 2 ^ 29 = 6 ∨ ea.toNat % 2 ^ 29 < (s.bank .system).sl.toNat ∨
    (s.bank .system).su.toNat < ea.toNat % 2 ^ 29

/-! ## Compares -/

/-- The flags a compare of `a` with `b` leaves (40_immediate_operate.md R148), said over the numbers: cf unsigned less,
zf equal, nf a negative difference modulo 2^32, vf a signed difference that 32 bits cannot hold. The odd flag may be
anything. -/
def IsCompare (a b : Word) (f : Flags) : Prop :=
  f.cf = decide (a.toNat < b.toNat) ∧ f.zf = decide (a = b) ∧ f.nf = decide ((a - b).toInt < 0) ∧
    f.vf = decide (a.toInt - b.toInt < -2147483648 ∨ 2147483647 < a.toInt - b.toInt)

/-! ## Register sets -/

/-- `code` names the register set of mode `m` while `current` is the mode: the number of the mode, or 7 for the current
one (43_system.md R244). -/
def NamesSet (code : BitVec 3) (current m : Mode) : Prop :=
  code.toNat = m.bits.toNat ∨ (code = 7#3 ∧ m = current)

/-- A mode in which privileged instructions run: system or debug (43_system.md R250). -/
def State.Supervisor (s : State) : Prop := s.mode = .system ∨ s.mode = .debug

/-! ## The blank cells -/

/-- The first word names a blank cell of the major opcode map, of the function map, or (outside the long-immediate
pattern) of the branch condition table (30_encoding.md R129). -/
def blankCell (w : Word) : Bool :=
  [0x05, 0x07, 0x0B, 0x0C, 0x0D, 0x0E, 0x0F, 0x12, 0x13, 0x15, 0x16, 0x17, 0x18, 0x19, 0x1A, 0x1B].contains
      (opcodeOf w) ||
    opcodeOf w == 0x02 && funcOf w == 0x07 ||
    opcodeOf w == 0x03 && !longPattern w && [0x13, 0x14, 0x15, 0x16, 0x17].contains (field10 w)

end Sys2Proof.Machine
end

