-- ==== Sys2Proof/Certificates/Slice0/Obligations.lean ====
section
/-! DEFINITION. Certificates/Slice0/Obligations.lean: the statements for the provers. A docstring names the rule, or the
decision of the spec or of the model (log <n>), that a statement rests on. -/

open Sys2Proof Sys2Proof.Machine

/-! ## Reset -/

/-- 70_reset_and_hazards.md section 1, 10_state.md section 11: the stated reset values. That a step with the reset BRK
outstanding is that BRK is how the model says "second, a forced BRK runs" (log 4). -/
def Obligations.ResetReleasesStatedValues : Prop :=
  State.reset.mode = .system ∧ State.reset.im = true ∧ State.reset.vcs = 0xFFFFFFFF#32 ∧
  (State.reset.bank .system).ds = 0x00000000#32 ∧ (State.reset.bank .system).dsl = 0xFFFFFFFF#32 ∧
  State.reset.reg .system 31#5 = 0x100#32 ∧ (State.reset.bank .system).sl = 0x0000#32 ∧
  (State.reset.bank .system).su = 0x0100#32 ∧ State.reset.resetPending = true ∧
  ∀ s : State, s.resetPending = true →
    step s = brkSequence Config.resetVector Config.resetSavedPc s.endReset

/-- 70_reset_and_hazards.md section 1 (R341): what the reset BRK leaves. That it is a step of its own is the model's
choice, log 4. -/
def Obligations.ResetBrkEntersVectorTable : Prop :=
  ∃ t, step State.reset = .next t ∧ t.mode = .system ∧ t.im = true ∧ t.reg .system 31#5 = 0xFC#32 ∧
    (t.bank .system).csl = 2047#32 ∧ (t.bank .system).cs = 0xFFFFFFFF#32 ∧
    t.pc.toNat = Config.resetVector.toNat * 4 ∧
    (lin (t.bank t.mode).cs t.pc).toNat = 0xFFFFFFFF000 + 4 * Config.resetVector.toNat ∧
    (t.readWord 0xFC#44).extractLsb' 8 2 = 2#2 ∧ (t.readWord 0xFC#44).getLsbD 2 = true ∧
    t.resetPending = false ∧
    SameMemory (fun a => a = 0xFC#44 ∨ a = 0xFD#44 ∨ a = 0xFE#44 ∨ a = 0xFF#44) State.reset t

/-- The invariant holds at reset (10_state.md R41). -/
def Obligations.ResetMemoryIsCanonical : Prop := State.reset.Inv

/-! ## Registers -/

/-- 10_state.md section 3: r0 reads as zero in every set, and a write to it changes nothing (the write side is decision
D14). -/
def Obligations.RegisterZeroReadsZeroAndDiscards : Prop :=
  ∀ (s : State) (m : Mode) (v : Word), s.reg m 0#5 = 0#32 ∧ s.setReg m 0#5 v = s

/-- 10_state.md section 3: r31 of set m is sp[m], and special register 18h + m names the same storage (the spec marks
the sameness as derived). -/
def Obligations.RegisterThirtyOneIsStackPointer : Prop :=
  ∀ (s : State) (m k : Mode) (v unused : Word),
    s.reg m 31#5 = (s.bank m).sp ∧
    ((s.setReg m 31#5 v).bank k).sp = (if k = m then v else (s.bank k).sp) ∧
    ∃ r, sprOf (0x18#7 + m.bits.setWidth 7) = some r ∧ s.readSpr unused r = s.reg m 31#5

/-! ## Data addresses -/

/-- 20_memory.md sections 1 and 2: an ordinary access with base register 0 to 29 is checked against the limit of the
segment its upper three bits select, and else has the linear address segment * 4096 + offset modulo 2^44 (decisions D3,
D4, D16; log 15). -/
def Obligations.DataAccessFollowsSegmentAndLimit : Prop :=
  ∀ row ∈ ([(0, Bank.ds, Bank.dsl), (1, Bank.es, Bank.esl), (2, Bank.fs, Bank.fsl), (3, Bank.gs, Bank.gsl),
      (4, Bank.cs, Bank.csl), (7, Bank.ds, Bank.dsl)] : List (Nat × (Bank → Word) × (Bank → Word))),
  ∀ (base : Reg) (ea : Word) (s : State), base.toNat ≤ 29 → ea.toNat / 2 ^ 29 = row.1 →
    if (row.2.2 (s.bank s.mode)).toNat < ea.toNat % 2 ^ 29 then
      accessAddr base ea s =
        .raised (.boundsData (BitVec.ofNat 32 (ea.toNat % 2 ^ 29)) (row.2.1 (s.bank s.mode)))
    else
      ∃ a, accessAddr base ea s = .address a ∧
        a.toNat = ((row.2.1 (s.bank s.mode)).toNat * 4096 + ea.toNat % 2 ^ 29) % 2 ^ 44

/-- 20_memory.md section 2: an access with base register 30 or 31 is checked against the stack bounds, the lower one with
STACK_MARGIN = 4 added (the upper check and the comparison of the offset are decision D15; log 14, log 16). -/
def Obligations.StackAccessFollowsStackBounds : Prop :=
  ∀ row ∈ ([(0, Bank.ds), (1, Bank.es), (2, Bank.fs), (3, Bank.gs), (4, Bank.cs), (7, Bank.ds)] :
      List (Nat × (Bank → Word))),
  ∀ (base : Reg) (ea : Word) (s : State), 30 ≤ base.toNat → ea.toNat / 2 ^ 29 = row.1 →
    if ea.toNat % 2 ^ 29 < ((s.bank s.mode).sl.toNat + 4) % 2 ^ 32 ∨ (s.bank s.mode).su.toNat < ea.toNat % 2 ^ 29 then
      accessAddr base ea s =
        .raised (.stackFault (BitVec.ofNat 32 (ea.toNat % 2 ^ 29)) (row.2 (s.bank s.mode)))
    else
      ∃ a, accessAddr base ea s = .address a ∧
        a.toNat = ((row.2 (s.bank s.mode)).toNat * 4096 + ea.toNat % 2 ^ 29) % 2 ^ 44

/-- 20_memory.md section 1 (R73, decision D10): selectors 101 and 110 are refused, whatever the access. -/
def Obligations.ReservedSelectorsAreRefused : Prop :=
  ∀ (ea margin : Word) (isStack : Bool) (s : State), ea.toNat / 2 ^ 29 = 5 ∨ ea.toNat / 2 ^ 29 = 6 →
    dataAddr ea isStack margin s = .refused .reservedSelector

/-! ## Decoding and the step -/

/-- 60_exceptions.md section 4 (R308), 20_memory.md R75 and R76: past the reset BRK and inside the code limit, the step is
the meaning of the well-formed instruction that the words at pc decode to; with IM = 0 the environment is asked first
(log 11). -/
def Obligations.StepRunsDecodedInstruction : Prop :=
  ∀ (s : State) (i : Instr), s.resetPending = false → s.pc.toNat ≤ (s.bank s.mode).csl.toNat →
    decode (s.readWord (lin (s.bank s.mode).cs s.pc)) (s.readWord (lin (s.bank s.mode).cs (s.pc + 1)))
      (s.readWord (lin (s.bank s.mode).cs (s.pc + 2))) = .ok i → i.wellFormed = true →
    if s.im = true then step s = exec i s
    else
      match Config.interruptRequest s.draws with
      | none => step s = exec i s.tick
      | some v => step s = takeInterrupt v s.tick

/-- Log 30: the instruction that `withFetchWord` places is the one the next step runs. -/
def Obligations.PlacedInstructionRunsNext : Prop :=
  ∀ (s : State) (nbits w : Nat) (i : Instr), decodeTableWord nbits w = some i →
    step (s.withFetchWord nbits w) = exec i (s.withFetchWord nbits w)

/-- A few words written out from the formats of 30_encoding.md decode to their instructions. -/
def Obligations.WrittenOutWordsDecode : Prop :=
  decode 0x000000A0#32 0 0 = .ok (.brk 5#9) ∧
  decode 0x20018822#32 0 0 = .ok (.add 3#5 2#5 1#5) ∧
  decode 0x80000824#32 0x12345678#32 0 = .ok (.addiL 2#5 1#5 0#11 0x12345678#32) ∧
  decode 0x00000814#32 0x00001000#32 0xE0000FFF#32 = .ok (.jmf 0x40#27 0x00001000#32 7#3 0#2 0xFFF#27) ∧
  decode 0x18209C22#32 0 0 = .ok (.mov 2#3 1#5 7#3 1#5) ∧
  decode 0xD8208002#32 0 0 = .ok (.mfspr 0x02#7 1#5) ∧
  decode 0x98008022#32 0 0 = .ok (.rti 1#5 1#5) ∧
  decode 0xE8011022#32 0 0 = .ok (.seg 2#5 4#3 1#5) ∧
  decode 0x000260A3#32 0 0 = .ok (.brz 4#17 5#5)

/-- 30_encoding.md sections 1 to 3: decoding the words of any well-formed instruction gives it back, whatever words
follow them. -/
def Obligations.DecodeOfEncodeIsIdentity : Prop :=
  ∀ (i : Instr) (w1 w2 : Word), i.wellFormed = true →
    decode ((encode i).getD 0 0) ((encode i).getD 1 w1) ((encode i).getD 2 w2) = .ok i

/-- 30_encoding.md sections 1 to 3: an instruction that is decoded is well-formed, and its words are the words read: no
bit of them is dropped. -/
def Obligations.EncodeOfDecodeIsIdentity : Prop :=
  ∀ (w0 w1 w2 : Word) (i : Instr), decode w0 w1 w2 = .ok i →
    i.wellFormed = true ∧ encode i = [w0, w1, w2].take i.words

/-- 30_encoding.md section 5 (R137): a row of the opcode table applies to a first word exactly when the word decodes to an
instruction with the row's mnemonic; so no two rows of different mnemonics apply to one word. -/
def Obligations.DecodeFollowsOpcodeTable : Prop :=
  ∀ (w0 w1 w2 : Word), ∀ row ∈ opcodeTable,
    row.applies w0 = true ↔ ∃ i, decode w0 w1 w2 = .ok i ∧ i.mnemonic = row.mnemonic

/-- 30_encoding.md section 5 (R129, R130; decisions D9, D10): a word to which no row applies is refused, as unassigned if
it names a blank cell, else for a nonzero unused field. -/
def Obligations.WordsOutsideTheTableAreRefused : Prop :=
  ∀ (w0 w1 w2 : Word), (∀ row ∈ opcodeTable, row.applies w0 = false) →
    decode w0 w1 w2 = .error (if blankCell w0 = true then .unassignedEncoding else .nonzeroUnusedField)

/-- 30_encoding.md section 1: the length of an instruction is found from its first word. That opcodes 09h and 0Ah (ORI and
EORI) have a two-word form rests on ADMIT_INFERRED, THE MODEL'S CHOICE, log 7. -/
def Obligations.LengthIsFoundFromFirstWord : Prop :=
  ∀ (w0 w1 w2 : Word) (i : Instr), decode w0 w1 w2 = .ok i →
    i.words =
      if w0.extractLsb' 0 5 = 0x14#5 then 3
      else if w0.extractLsb' 0 5 ∈ [0x04#5, 0x06#5, 0x08#5, 0x09#5, 0x0A#5] ∧ w0.extractLsb' 26 6 = 0b100000#6 then 2
      else 1

/-! ## Immediate operate -/

/-- 40_immediate_operate.md section 2: ADDI in both forms (the wrap modulo 2^32 is decision D33). -/
def Obligations.AddImmediateWritesSum : Prop :=
  ∀ (s : State) (rt ra : Reg) (imm : BitVec 17) (x : BitVec 11) (word : Word),
    (∃ t, exec (.addi rt ra imm) s = .next t ∧ t.pc = s.pc + 1 ∧
      OnlyRegChanges s.mode rt (s.reg s.mode ra + imm.signExtend 32) s t) ∧
    (∃ t, exec (.addiL rt ra x word) s = .next t ∧ t.pc = s.pc + 2 ∧
      OnlyRegChanges s.mode rt (s.reg s.mode ra + word) s t)

/-- 40_immediate_operate.md R142: ANDI in both forms: its words (a short form with an immediate that WellFormed refuses has
none that decode to it), and what it does. -/
def Obligations.AndImmediateWritesConjunction : Prop :=
  ∀ (s : State) (rt ra : Reg) (imm : BitVec 17) (x : BitVec 11) (word : Word),
    encode (.andi rt ra imm) =
      [BitVec.ofNat 32 (imm.toNat * 2 ^ 15 + rt.toNat * 2 ^ 10 + ra.toNat * 2 ^ 5 + 0x08)] ∧
    encode (.andiL rt ra x word) =
      [BitVec.ofNat 32 (2 ^ 31 + x.toNat * 2 ^ 15 + rt.toNat * 2 ^ 10 + ra.toNat * 2 ^ 5 + 0x08), word] ∧
    (∃ t, exec (.andi rt ra imm) s = .next t ∧ t.pc = s.pc + 1 ∧
      OnlyRegChanges s.mode rt (s.reg s.mode ra &&& imm.signExtend 32) s t) ∧
    (∃ t, exec (.andiL rt ra x word) s = .next t ∧ t.pc = s.pc + 2 ∧
      OnlyRegChanges s.mode rt (s.reg s.mode ra &&& word) s t)

/-- 40_immediate_operate.md sections 1 and 2: CMPI in both forms writes the five flags of the current mode and nothing
else (what each flag holds is decision D12, and nf and vf are general knowledge; log 9). -/
def Obligations.CompareImmediateWritesFlags : Prop :=
  ∀ (s : State) (ra : Reg) (imm : BitVec 17) (x : BitVec 11) (word : Word),
    (∃ t, exec (.cmpi ra imm) s = .next t ∧ t.pc = s.pc + 1 ∧ OnlyFlagsChange s.mode s t ∧
      IsCompare (s.reg s.mode ra) (imm.signExtend 32) (t.bank s.mode).flags) ∧
    (∃ t, exec (.cmpiL ra x word) s = .next t ∧ t.pc = s.pc + 2 ∧ OnlyFlagsChange s.mode s t ∧
      IsCompare (s.reg s.mode ra) word (t.bank s.mode).flags)

/-- THE MODEL'S CHOICE, log 7 (decision D26, ADMIT_INFERRED): ORI and EORI in both forms, and NOP, by the meaning the spec
infers for them. -/
def Obligations.InferredImmediatesAndNop : Prop :=
  (∀ row ∈ ([(Instr.ori, fun a b => a ||| b), (Instr.eori, fun a b => a ^^^ b)] :
      List ((Reg → Reg → Imm → Instr) × (Word → Word → Word))),
    ∀ (s : State) (rt ra : Reg) (imm : BitVec 17) (x : BitVec 11) (word : Word),
      (∃ t, exec (row.1 rt ra (.short imm)) s = .next t ∧ t.pc = s.pc + 1 ∧
        OnlyRegChanges s.mode rt (row.2 (s.reg s.mode ra) (imm.signExtend 32)) s t) ∧
      (∃ t, exec (row.1 rt ra (.long x word)) s = .next t ∧ t.pc = s.pc + 2 ∧
        OnlyRegChanges s.mode rt (row.2 (s.reg s.mode ra) word) s t)) ∧
  (∀ s : State, ∃ t, exec (.nop 0#27) s = .next t ∧ t.pc = s.pc + 1 ∧ OnlyPcChanges s t)

/-! ## Register operate -/

/-- 41_register_operate.md section 2: ADD (the wrap modulo 2^32 is decision D33). -/
def Obligations.AddWritesSum : Prop :=
  ∀ (s : State) (rt rb ra : Reg), ∃ t, exec (.add rt rb ra) s = .next t ∧ t.pc = s.pc + 1 ∧
    OnlyRegChanges s.mode rt (BitVec.ofNat 32 ((s.reg s.mode ra).toNat + (s.reg s.mode rb).toNat)) s t

/-- 41_register_operate.md R167: AND: its word, and what it does. -/
def Obligations.AndWritesConjunction : Prop :=
  ∀ (s : State) (rt rb ra : Reg),
    encode (.andr rt rb ra) =
      [BitVec.ofNat 32 (0x40000002 + rt.toNat * 2 ^ 15 + rb.toNat * 2 ^ 10 + ra.toNat * 2 ^ 5)] ∧
    ∃ t, exec (.andr rt rb ra) s = .next t ∧ t.pc = s.pc + 1 ∧
      OnlyRegChanges s.mode rt (s.reg s.mode ra &&& s.reg s.mode rb) s t

/-- 41_register_operate.md R181: the word of SEG; it replaces bits 31..29 by the constant and keeps bits 28..0. -/
def Obligations.SegWritesSelector : Prop :=
  ∀ (s : State) (rt ra : Reg) (imm3 : BitVec 3),
    encode (.seg rt imm3 ra) =
      [BitVec.ofNat 32 (0xE8000002 + rt.toNat * 2 ^ 15 + imm3.toNat * 2 ^ 10 + ra.toNat * 2 ^ 5)] ∧
    ∃ t v, exec (.seg rt imm3 ra) s = .next t ∧ t.pc = s.pc + 1 ∧
      v.toNat = imm3.toNat * 2 ^ 29 + (s.reg s.mode ra).toNat % 2 ^ 29 ∧ OnlyRegChanges s.mode rt v s t

/-- THE MODEL'S CHOICE, log 7 (decision D26, ADMIT_INFERRED): SUB, OR, EOR, NAND, NOR and ENOR by the meaning the spec
infers for them. -/
def Obligations.InferredRegisterOperations : Prop :=
  ∀ row ∈ ([(Instr.sub, fun a b => a - b), (Instr.orr, fun a b => a ||| b), (Instr.eor, fun a b => a ^^^ b),
      (Instr.nand, fun a b => ~~~(a &&& b)), (Instr.nor, fun a b => ~~~(a ||| b)),
      (Instr.enor, fun a b => ~~~(a ^^^ b))] :
      List ((BitVec 7 → Reg → Reg → Reg → Instr) × (Word → Word → Word))),
    ∀ (s : State) (rt rb ra : Reg), ∃ t, exec (row.1 0#7 rt rb ra) s = .next t ∧ t.pc = s.pc + 1 ∧
      OnlyRegChanges s.mode rt (row.2 (s.reg s.mode ra) (s.reg s.mode rb)) s t

/-- THE MODEL'S CHOICE, log 7 (decision D26, ADMIT_INFERRED): CMP by the meaning the spec infers for it. -/
def Obligations.InferredRegisterCompare : Prop :=
  ∀ (s : State) (rb ra : Reg), ∃ t, exec (.cmp 0#7 0#5 rb ra) s = .next t ∧ t.pc = s.pc + 1 ∧
    OnlyFlagsChange s.mode s t ∧ IsCompare (s.reg s.mode ra) (s.reg s.mode rb) (t.bank s.mode).flags

/-- THE MODEL'S CHOICE, log 21 (decision D26): outside its inferred format a map-only word is refused as map-only. -/
def Obligations.OutsideInferredFormatRefused : Prop :=
  (∀ op ∈ ([Instr.sub, Instr.orr, Instr.eor, Instr.nand, Instr.nor, Instr.enor] :
      List (BitVec 7 → Reg → Reg → Reg → Instr)),
    ∀ (s : State) (u : BitVec 7) (rt rb ra : Reg), u ≠ 0#7 → exec (op u rt rb ra) s = .refused .mapOnlyInstruction) ∧
  (∀ (s : State) (u : BitVec 7) (ut rb ra : Reg), u ≠ 0#7 ∨ ut ≠ 0#5 →
    exec (.cmp u ut rb ra) s = .refused .mapOnlyInstruction) ∧
  (∀ (s : State) (rest : BitVec 27), rest ≠ 0#27 → exec (.nop rest) s = .refused .mapOnlyInstruction)

/-- 41_register_operate.md section 3: the functions the spec knows by name and number only are refused (R161 to R163,
R170, R174 to R180). -/
def Obligations.NameOnlyOperationsRefused : Prop :=
  ∀ row ∈ ([(Instr.notr, 0x00#5), (Instr.neg, 0x01#5), (Instr.com, 0x02#5), (Instr.andc, 0x0B#5), (Instr.orc, 0x0F#5),
      (Instr.shli, 0x14#5), (Instr.shri, 0x15#5), (Instr.shl, 0x16#5), (Instr.shr, 0x17#5), (Instr.asri, 0x18#5),
      (Instr.asr, 0x19#5)] : List ((BitVec 22 → Instr) × BitVec 5)),
    (∀ (s : State) (rest : BitVec 22), exec (row.1 rest) s = .refused .mapOnlyInstruction) ∧
    ∀ (w0 w1 w2 : Word), w0.extractLsb' 0 5 = 0x02#5 → w0.extractLsb' 27 5 = row.2 →
      decode w0 w1 w2 = .ok (row.1 (w0.extractLsb' 5 22))

/-- EXS and EXL (41_register_operate.md R182, R183), the JMP, JSR and RTS functions (42_control_transfer.md R233 to R235),
MTSPR and DBG (43_system.md R246, R247) are refused. -/
def Obligations.NameOnlyTransfersAndSystemRefused : Prop :=
  ∀ row ∈ ([(Instr.exs, 0x1E#5), (Instr.exl, 0x1F#5), (Instr.jmpr, 0x10#5), (Instr.jsrr, 0x11#5), (Instr.rts, 0x12#5),
      (Instr.mtspr, 0x1A#5), (Instr.dbg, 0x1C#5)] : List ((BitVec 22 → Instr) × BitVec 5)),
    (∀ (s : State) (rest : BitVec 22), exec (row.1 rest) s = .refused .mapOnlyInstruction) ∧
    ∀ (w0 w1 w2 : Word), w0.extractLsb' 0 5 = 0x02#5 → w0.extractLsb' 27 5 = row.2 →
      decode w0 w1 w2 = .ok (row.1 (w0.extractLsb' 5 22))

/-- LD, LDAR, ST, STCR (44_load_store.md R280 to R283) and JSR (42_control_transfer.md R231) are refused, for any word
with their major opcode. -/
def Obligations.NameOnlyMajorOpcodesRefused : Prop :=
  ∀ row ∈ ([(Instr.ld, 0x1C#5), (Instr.ldar, 0x1D#5), (Instr.st, 0x1E#5), (Instr.stcr, 0x1F#5),
      (Instr.jsr, 0x11#5)] : List ((BitVec 27 → Instr) × BitVec 5)),
    (∀ (s : State) (rest : BitVec 27), exec (row.1 rest) s = .refused .mapOnlyInstruction) ∧
    ∀ (w0 w1 w2 : Word), w0.extractLsb' 0 5 = row.2 → decode w0 w1 w2 = .ok (row.1 (w0.extractLsb' 5 27))

/-! ## Branches -/

/-- 42_control_transfer.md section 1: the branches that test cf, zf, the odd flag, or nf and zf, and BRA: their match values
and when they are taken. That the target is pc + 1 + imm is BRANCH_BASE (decision D6), THE MODEL'S CHOICE, log 8. -/
def Obligations.FlagBranchesTestTheirFlags : Prop :=
  ∀ row ∈ ([(Instr.bra, 0x00000003#32, fun _ => true),
      (Instr.bhi, 0x00000803#32, fun f => !f.cf && !f.zf), (Instr.bls, 0x00000C03#32, fun f => f.cf || f.zf),
      (Instr.bhs, 0x00001003#32, fun f => !f.cf), (Instr.blo, 0x00001403#32, fun f => f.cf),
      (Instr.bne, 0x00001803#32, fun f => !f.zf), (Instr.beq, 0x00001C03#32, fun f => f.zf),
      (Instr.bev, 0x00004003#32, fun f => !f.odd), (Instr.bod, 0x00004403#32, fun f => f.odd),
      (Instr.bpo, 0x00004803#32, fun f => !f.nf && !f.zf)] :
      List ((BitVec 17 → Reg → Instr) × Word × (Flags → Bool))),
    ∀ (s : State) (imm : BitVec 17) (ra : Reg),
      (encode (row.1 imm ra)).headD 0 &&& 0x00007C1F#32 = row.2.1 ∧
      ∃ t, exec (row.1 imm ra) s = .next t ∧ OnlyPcChanges s t ∧
        t.pc = if row.2.2 (s.bank s.mode).flags = true then s.pc + 1 + imm.signExtend 32 else s.pc + 1

/-- 42_control_transfer.md section 1: the branches that test vf, nf or both: their match values and when they are taken. That
the target is pc + 1 + imm is BRANCH_BASE (decision D6), THE MODEL'S CHOICE, log 8. -/
def Obligations.SignedBranchesTestTheirFlags : Prop :=
  ∀ row ∈ ([(Instr.bvc, 0x00002003#32, fun f => !f.vf), (Instr.bvs, 0x00002403#32, fun f => f.vf),
      (Instr.bpl, 0x00002803#32, fun f => !f.nf), (Instr.bmi, 0x00002C03#32, fun f => f.nf),
      (Instr.bge, 0x00003003#32, fun f => (f.nf && f.vf) || (!f.nf && !f.vf)),
      (Instr.blt, 0x00003403#32, fun f => (f.nf && !f.vf) || (!f.nf && f.vf)),
      (Instr.ble, 0x00003C03#32, fun f => f.zf || (f.nf && !f.vf) || (!f.nf && f.vf))] :
      List ((BitVec 17 → Reg → Instr) × Word × (Flags → Bool))),
    ∀ (s : State) (imm : BitVec 17) (ra : Reg),
      (encode (row.1 imm ra)).headD 0 &&& 0x00007C1F#32 = row.2.1 ∧
      ∃ t, exec (row.1 imm ra) s = .next t ∧ OnlyPcChanges s t ∧
        t.pc = if row.2.2 (s.bank s.mode).flags = true then s.pc + 1 + imm.signExtend 32 else s.pc + 1

/-- 42_control_transfer.md section 1, 90_conflicts.md C4: BGT by the corrected formula, the complement of BLE (log 19;
for the target, decision D6, log 8). -/
def Obligations.BgtIsTheComplementOfBle : Prop :=
  ∀ (s : State) (imm : BitVec 17) (ra rb : Reg),
    (encode (.bgt imm ra)).headD 0 &&& 0x00007C1F#32 = 0x00003803#32 ∧
    ∃ t u, exec (.bgt imm ra) s = .next t ∧ OnlyPcChanges s t ∧ exec (.ble imm rb) s = .next u ∧
      (t.pc = if ((s.bank s.mode).flags.nf == (s.bank s.mode).flags.vf && !(s.bank s.mode).flags.zf) = true then
        s.pc + 1 + imm.signExtend 32 else s.pc + 1) ∧
      ((t.pc = s.pc + 1 + imm.signExtend 32 ∧ u.pc = s.pc + 1) ∨
        (t.pc = s.pc + 1 ∧ u.pc = s.pc + 1 + imm.signExtend 32))

/-- 42_control_transfer.md section 1: the branches that test a register: their match values and when they are taken. That the
target is pc + 1 + imm is BRANCH_BASE (decision D6), THE MODEL'S CHOICE, log 8. -/
def Obligations.RegisterBranchesTestTheRegister : Prop :=
  ∀ row ∈ ([(Instr.brz, 0x00006003#32, fun v => v == 0#32), (Instr.bnz, 0x00006403#32, fun v => v != 0#32),
      (Instr.brp, 0x00006803#32, fun v => !v.getLsbD 31), (Instr.brn, 0x00006C03#32, fun v => v.getLsbD 31)] :
      List ((BitVec 17 → Reg → Instr) × Word × (Word → Bool))),
    ∀ (s : State) (imm : BitVec 17) (ra : Reg),
      (encode (row.1 imm ra)).headD 0 &&& 0x00007C1F#32 = row.2.1 ∧
      ∃ t, exec (row.1 imm ra) s = .next t ∧ OnlyPcChanges s t ∧
        t.pc = if row.2.2 (s.reg s.mode ra) = true then s.pc + 1 + imm.signExtend 32 else s.pc + 1

/-- 42_control_transfer.md section 1: BXC and BXS test the value of the external signal drawn at this instruction (decision
D29, log 10), BRC and BRS the reservation flag: their match values and when they are taken. That the target is pc + 1 + imm
is BRANCH_BASE (decision D6), THE MODEL'S CHOICE, log 8. -/
def Obligations.SignalAndReservationBranches : Prop :=
  ∀ row ∈ ([(Instr.bxc, 0x00007003#32, fun s => !Config.externalSignal s.draws),
      (Instr.bxs, 0x00007403#32, fun s => Config.externalSignal s.draws),
      (Instr.brc, 0x00007803#32, fun s => !s.rf), (Instr.brs, 0x00007C03#32, fun s => s.rf)] :
      List ((BitVec 17 → Reg → Instr) × Word × (State → Bool))),
    ∀ (s : State) (imm : BitVec 17) (ra : Reg),
      (encode (row.1 imm ra)).headD 0 &&& 0x00007C1F#32 = row.2.1 ∧
      ∃ t, exec (row.1 imm ra) s = .next t ∧ OnlyPcChanges s t ∧
        t.pc = if row.2.2 s = true then s.pc + 1 + imm.signExtend 32 else s.pc + 1

/-- 40_immediate_operate.md section 1, 42_control_transfer.md section 1 (decisions D6, D12; log 8, log 9): after a compare of a
with b the order branches are taken exactly when a and b stand in the order their names say, unsigned or signed. -/
def Obligations.BranchesAfterCompareDecideOrder : Prop :=
  ∀ (a b : Word) (s : State) (imm : BitVec 17) (ra : Reg), IsCompare a b (s.bank s.mode).flags →
    ∀ row ∈ ([(Instr.bhi, decide (b.toNat < a.toNat)), (Instr.bls, decide (a.toNat ≤ b.toNat)),
        (Instr.bhs, decide (b.toNat ≤ a.toNat)), (Instr.blo, decide (a.toNat < b.toNat)),
        (Instr.bne, decide (a ≠ b)), (Instr.beq, decide (a = b)),
        (Instr.bge, decide (b.toInt ≤ a.toInt)), (Instr.blt, decide (a.toInt < b.toInt)),
        (Instr.bgt, decide (b.toInt < a.toInt)), (Instr.ble, decide (a.toInt ≤ b.toInt))] :
        List ((BitVec 17 → Reg → Instr) × Bool)),
      ∃ t, exec (row.1 imm ra) s = .next t ∧
        t.pc = if row.2 = true then s.pc + 1 + imm.signExtend 32 else s.pc + 1

/-- 42_control_transfer.md R203: BSR is refused in every state. -/
def Obligations.BsrIsRefused : Prop :=
  ∀ (s : State) (imm : BitVec 17) (ra : Reg),
    (encode (.bsr imm ra)).headD 0 &&& 0x00007C1F#32 = 0x00000403#32 ∧
    exec (.bsr imm ra) s = .refused .bsrLinkUnspecified

/-- 42_control_transfer.md section 1 (decision D13): any Bcc word with the long-immediate pattern is refused. -/
def Obligations.LongPatternBranchIsRefused : Prop :=
  ∀ (s : State) (w0 w1 w2 : Word), w0.extractLsb' 0 5 = 0x03#5 → w0.extractLsb' 26 6 = 0b100000#6 →
    ∃ low cond ra, decode w0 w1 w2 = .ok (.bccLong low cond ra) ∧
      exec (.bccLong low cond ra) s = .refused .bccLongImmediatePattern

/-! ## Jumps -/

/-- 42_control_transfer.md section 2: JMP (the zero extension is decision D21). -/
def Obligations.JumpAssignsOffset : Prop :=
  ∀ (s : State) (offset : BitVec 27), ∃ t, exec (.jmp offset) s = .next t ∧ t.pc.toNat = offset.toNat ∧ OnlyPcChanges s t

/-- 42_control_transfer.md section 2: JMF outside the user modes with Ts naming the current set (decision D25, log 26). -/
def Obligations.FarJumpLoadsCodeSegment : Prop :=
  ∀ (s : State) (offset limit : BitVec 27) (segment : Word) (ts : BitVec 3), s.Supervisor →
    NamesSet ts s.mode s.mode →
    ∃ t, exec (.jmf offset segment ts 0#2 limit) s = .next t ∧ t.pc.toNat = offset.toNat ∧
      (t.bank s.mode).cs = segment ∧ (t.bank s.mode).csl.toNat = limit.toNat ∧
      SameRegs nowhere2 s t ∧ SameFlags nowhere s t ∧
      SameSegments (fun m k => m = s.mode ∧ (k = .cs ∨ k = .csl)) s t ∧ SameStatus s t ∧ SameVcs s t ∧
      SameFaultRegs s t ∧ SameMemory nowhere s t

/-! ## Traps -/

/-- 43_system.md section 2 (decisions D7, D8; log 6, log 24): BRK, wherever on the system stack the frame lies. -/
def Obligations.BrkTakesTheTrap : Prop :=
  ∀ (s : State) (vector : VectorNo) (f : FrameAddrs), s.PushesFrame f →
    ∃ t, exec (.brk vector) s = .next t ∧ TrapTaken vector (s.pc + 1) f s t ∧ SameFaultRegs s t

/-- 43_system.md section 1, 60_exceptions.md sections 1 and 2 (decisions D5, D7, D30; log 23, log 24): in a user mode JMF,
MFSPR and RTI take the Priv exception, whatever their operands. That this holds for a JMF with a nonzero unused field or
another Ts, and for an MFSPR of an unlisted number, is THE MODEL'S CHOICE among the spec's orders of checks, log 20. -/
def Obligations.PrivilegedInstructionsTrapInUserModes : Prop :=
  ∀ (s : State) (i : Instr) (f : FrameAddrs), s.mode = .user1 ∨ s.mode = .user2 → s.PushesFrame f →
    (∃ offset segment ts u limit, i = .jmf offset segment ts u limit) ∨ (∃ spr rt, i = .mfspr spr rt) ∨
      (∃ rt ra, i = .rti rt ra) →
    ∃ t, exec i s = .next t ∧ ExceptionTaken Config.vecPriv f s t ∧ SameFaultData s t

/-- 60_exceptions.md section 2 (decision D30, log 24): taking each exception: its vector, the pc it saves, and the fault
registers it writes. -/
def Obligations.ExceptionEntryRecordsFault : Prop :=
  ∀ (s : State) (off seg : Word) (f : FrameAddrs), s.PushesFrame f →
    (∃ t, takeException .priv s = .next t ∧ ExceptionTaken Config.vecPriv f s t ∧ SameFaultData s t) ∧
    (∃ t, takeException .boundsFetch s = .next t ∧ ExceptionTaken Config.vecBounds f s t ∧ SameFaultData s t) ∧
    (∃ t, takeException (.boundsData off seg) s = .next t ∧ ExceptionTaken Config.vecBounds f s t ∧
      t.faultAddr = off ∧ t.faultSeg = seg) ∧
    (∃ t, takeException (.stackFault off seg) s = .next t ∧ ExceptionTaken Config.vecStack f s t ∧
      t.faultAddr = off ∧ t.faultSeg = seg)

/-- 20_memory.md section 2, 60_exceptions.md section 4 (decisions D16, D29; log 11, log 16): a step whose pc exceeds the code
limit takes the fetch bounds exception, with IM = 1 and with IM = 0 where the environment offers nothing; an interrupt it
delivers comes first, and is then the only trap taken. -/
def Obligations.FetchBeyondCodeLimitTraps : Prop :=
  ∀ (s : State) (f : FrameAddrs), s.resetPending = false → (s.bank s.mode).csl.toNat < s.pc.toNat → s.PushesFrame f →
    if s.im = true then
      ∃ t, step s = .next t ∧ ExceptionTaken Config.vecBounds f s t ∧ SameFaultData s t
    else
      match Config.interruptRequest s.draws with
      | none => ∃ t, step s = .next t ∧ ExceptionTaken Config.vecBounds f s t ∧ SameFaultData s t
      | some v => ∃ t, step s = .next t ∧ TrapTaken v s.pc f s t ∧ SameFaultRegs s t

/-- 60_exceptions.md section 3 (decision D29, log 11): with IM = 0 an interrupt that the environment delivers forces a BRK
with its vector and the pc of the instruction not yet executed; with IM = 1 none is taken. -/
def Obligations.InterruptForcesBrkUnlessMasked : Prop :=
  ∀ s : State, s.resetPending = false →
    (s.im = true → step s = runInstruction s) ∧
    ∀ f : FrameAddrs, s.im = false → s.PushesFrame f →
      match Config.interruptRequest s.draws with
      | none => step s = runInstruction s.tick
      | some v => ∃ t, step s = .next t ∧ TrapTaken v s.pc f s t ∧ SameFaultRegs s t

/-- 60_exceptions.md section 4 (decision D28, log 17): a failing push leaves BRK stuck, a failing pop leaves RTI in system
mode stuck. -/
def Obligations.FailingTrapSequenceIsStuck : Prop :=
  (∀ (s : State) (vector : VectorNo), ∀ k ∈ [1#32, 2#32, 3#32, 4#32],
    s.StackAccessFails (s.reg .system 31#5 - k) → exec (.brk vector) s = .fault .faultInTrapSequence) ∧
  (∀ (s : State) (rt ra : Reg), s.mode = .system → ∀ k ∈ [0#32, 1#32, 2#32, 3#32],
    s.StackAccessFails (s.reg .system 31#5 + k) → exec (.rti rt ra) s = .fault .faultInTrapSequence)

/-- 43_system.md section 3 (decision D23, log 26): RTI in system mode, wherever on the system stack the frame lies. -/
def Obligations.RtiRestoresTheFrame : Prop :=
  ∀ (s : State) (rt ra : Reg) (f : FrameAddrs), s.mode = .system → s.FrameAt (s.reg .system 31#5) f →
    ∃ t, exec (.rti rt ra) s = .next t ∧
      IsMswImage (s.readWord f.msw) t.mode.bits (t.bank t.mode).flags t.rf t.im ∧
      t.pc = s.readWord f.pc ∧ (t.bank t.mode).cs = s.readWord f.cs ∧ (t.bank t.mode).csl = s.readWord f.csl ∧
      t.reg t.mode rt = (if rt = 0#5 then 0 else s.reg .system ra) ∧
      (¬ (t.mode = .system ∧ rt = 31#5) → t.reg .system 31#5 = s.reg .system 31#5 + 4) ∧
      SameRegs (fun m r => (m = t.mode ∧ r = rt) ∨ (m = .system ∧ r = 31#5)) s t ∧
      SameFlags (fun m => m = t.mode) s t ∧
      SameSegments (fun m k => m = t.mode ∧ (k = .cs ∨ k = .csl)) s t ∧ SameVcs s t ∧ SameFaultRegs s t ∧
      SameMemory nowhere s t

/-- 43_system.md section 3 ("RTI undoes BrkSequence"): BRK and then RTI resume after the BRK with the mode, status, flags,
registers and code segment of the interrupted program. Memory differs in the frame only; where the interrupted mode was
another than system, cs and csl of the system set are left at the vector table. The frame must not be reached through CS
unless cs = vcs, because BRK changes cs between its pushes and the pops of RTI. -/
def Obligations.RtiUndoesBrk : Prop :=
  ∀ (s : State) (vector : VectorNo) (f : FrameAddrs), s.PushesFrame f →
    (s.bank .system).cs = s.vcs ∨ (∀ k ∈ [1#32, 2#32, 3#32, 4#32], (s.reg .system 31#5 - k).toNat / 2 ^ 29 ≠ 4) →
    ∃ t u, exec (.brk vector) s = .next t ∧ exec (.rti 0#5 0#5) t = .next u ∧ u.pc = s.pc + 1 ∧
      SameRegs nowhere2 s u ∧ SameFlags nowhere s u ∧ u.mode = s.mode ∧ u.im = s.im ∧ u.rf = s.rf ∧
      SameSegments (fun m k => m = .system ∧ s.mode ≠ .system ∧ (k = .cs ∨ k = .csl)) s u ∧
      (s.mode ≠ .system → (u.bank .system).cs = s.vcs ∧ (u.bank .system).csl = 2047#32) ∧ SameVcs s u ∧
      SameFaultRegs s u ∧ SameMemory f.Holds s u

/-! ## MOV, MFSPR and the status word -/

/-- 43_system.md section 4 (decision D24, log 25): MOV between the sets the spec admits. -/
def Obligations.MovCopiesBetweenSets : Prop :=
  ∀ (s : State) (ts ss : BitVec 3) (rt ra : Reg) (source target : Mode), NamesSet ss s.mode source →
    NamesSet ts s.mode target →
    s.Supervisor ∨ (source = s.mode ∧ (target = s.mode ∨ target = .system)) →
    ∃ t, exec (.mov ts rt ss ra) s = .next t ∧ t.pc = s.pc + 1 ∧ OnlyRegChanges target rt (s.reg source ra) s t

/-- 10_state.md section 8: in system or debug mode MFSPR reads, for every number of the special-register map, the state it names;
of the MSW the defined bits. -/
def Obligations.MfsprReadsTheNamedState : Prop :=
  ∀ (s : State) (rt : Reg), s.Supervisor →
    (∀ row ∈ ([(0x08#7, Bank.ds), (0x0C#7, Bank.dsl), (0x10#7, Bank.sl), (0x14#7, Bank.su), (0x18#7, Bank.sp),
        (0x20#7, Bank.cs), (0x24#7, Bank.csl), (0x28#7, Bank.es), (0x2C#7, Bank.esl), (0x30#7, Bank.fs),
        (0x34#7, Bank.fsl), (0x38#7, Bank.gs), (0x3C#7, Bank.gsl)] : List (BitVec 7 × (Bank → Word))),
      ∀ m : Mode, ∃ t, exec (.mfspr (row.1 + m.bits.setWidth 7) rt) s = .next t ∧ t.pc = s.pc + 1 ∧
        OnlyRegChanges s.mode rt (row.2 (s.bank m)) s t) ∧
    (∀ row ∈ ([(0x40#7, Bank.ds), (0x41#7, Bank.dsl), (0x42#7, Bank.cs), (0x43#7, Bank.csl), (0x44#7, Bank.es),
        (0x45#7, Bank.esl), (0x46#7, Bank.fs), (0x47#7, Bank.fsl), (0x48#7, Bank.gs), (0x49#7, Bank.gsl),
        (0x4A#7, Bank.sl), (0x4B#7, Bank.su)] : List (BitVec 7 × (Bank → Word))),
      ∃ t, exec (.mfspr row.1 rt) s = .next t ∧ t.pc = s.pc + 1 ∧
        OnlyRegChanges s.mode rt (row.2 (s.bank s.mode)) s t) ∧
    (∀ row ∈ ([(0x02#7, State.vcs), (0x50#7, State.faultPc), (0x51#7, State.faultCs), (0x52#7, State.faultAddr),
        (0x53#7, State.faultSeg)] : List (BitVec 7 × (State → Word))),
      ∃ t, exec (.mfspr row.1 rt) s = .next t ∧ t.pc = s.pc + 1 ∧ OnlyRegChanges s.mode rt (row.2 s) s t) ∧
    (∃ t v, exec (.mfspr 0x03#7 rt) s = .next t ∧ t.pc = s.pc + 1 ∧
      IsMswImage v s.mode.bits (s.bank s.mode).flags s.rf s.im ∧ OnlyRegChanges s.mode rt v s t)

/-- 10_state.md section 6 (decisions D22, D23): writing back the MSW image of mode m, whatever its unused bits, enters
mode m and changes no flag, IM or RF. -/
def Obligations.MswImageWrittenBackKeepsStatus : Prop :=
  ∀ (s : State) (m : Mode) (unused : Word),
    (s.writeMsw (s.mswImage m unused)).mode = m ∧ (s.writeMsw (s.mswImage m unused)).im = s.im ∧
    (s.writeMsw (s.mswImage m unused)).rf = s.rf ∧
    ∀ k, (s.writeMsw (s.mswImage m unused)).bank k = s.bank k

/-- Forms of the system and jump instructions that the spec refuses by name, outside the user modes or (MOV) in any: JMF
with a nonzero unused field or another Ts (42_control_transfer.md section 2, D25), RTI in debug mode (43_system.md
section 3, D23), MOV with a reserved set code or between sets a user mode may not name (section 4, D10, D24), MFSPR of a
number with no named register (section 5, D10). -/
def Obligations.UnspecifiedSystemFormsRefused : Prop :=
  ∀ s : State,
    (∀ offset segment ts u limit, s.Supervisor → u ≠ 0#2 →
      exec (.jmf offset segment ts u limit) s = .refused .nonzeroUnusedField) ∧
    (∀ offset segment ts limit, s.Supervisor → ¬ NamesSet ts s.mode s.mode →
      exec (.jmf offset segment ts 0#2 limit) s = .refused .jmfTsUnspecified) ∧
    (∀ rt ra, s.mode = .debug → exec (.rti rt ra) s = .refused .rtiInDebugMode) ∧
    (∀ ts rt ss ra, ts ∈ [4#3, 5#3, 6#3] ∨ ss ∈ [4#3, 5#3, 6#3] →
      exec (.mov ts rt ss ra) s = .refused .reservedSetCode) ∧
    (∀ ts rt ss ra source target, s.mode = .user1 ∨ s.mode = .user2 → NamesSet ss s.mode source →
      NamesSet ts s.mode target → ¬ (source = s.mode ∧ (target = s.mode ∨ target = .system)) →
      exec (.mov ts rt ss ra) s = .refused .movPrivilegeUnspecified) ∧
    (∀ (spr : BitVec 7) rt, s.Supervisor →
      spr.toNat ∈ [0x00, 0x01, 0x04, 0x05, 0x06, 0x07, 0x1C, 0x1D, 0x1E, 0x1F, 0x4C, 0x4D, 0x4E, 0x4F] ∨
        0x54 ≤ spr.toNat →
      exec (.mfspr spr rt) s = .refused .unlistedSpr)

/-! ## What every step keeps -/

/-- Every step keeps memory in its canonical form (10_state.md R41). -/
def Obligations.EveryStepKeepsMemoryCanonical : Prop :=
  ∀ s t : State, s.Inv → step s = .next t → t.Inv

/-- 43_system.md section 5, 10_state.md section 7: MTSPR is refused, so no step changes VCS, a data segment, a data limit or a stack bound of any
mode. -/
def Obligations.NoStepChangesDataSegmentsOrVcs : Prop :=
  (∀ (s : State) (rest : BitVec 22), exec (.mtspr rest) s = .refused .mapOnlyInstruction) ∧
  ∀ s t : State, step s = .next t →
    t.vcs = s.vcs ∧ SameSegments (fun _ k => k = .cs ∨ k = .csl) s t

/-- 43_system.md R247: DBG, function 1Ch, is refused, so debug mode is entered only by an RTI whose popped word has bits 9..8 = 3. -/
def Obligations.DebugModeIsEnteredOnlyByRti : Prop :=
  (∀ (s : State) (rest : BitVec 22), exec (.dbg rest) s = .refused .mapOnlyInstruction) ∧
  (∀ w0 w1 w2 : Word, w0.extractLsb' 0 5 = 0x02#5 → w0.extractLsb' 27 5 = 0x1C#5 →
    decode w0 w1 w2 = .ok (.dbg (w0.extractLsb' 5 22))) ∧
  ∀ s t : State, step s = .next t → s.mode ≠ .debug → t.mode = .debug →
    ∃ rt ra f, s.decodeNext = .ok (.rti rt ra) ∧ trapFrame (s.reg .system 31#5) s = some f ∧
      (s.readWord f.msw).extractLsb' 8 2 = 3#2

/-- 60_exceptions.md section 5, 20_memory.md section 4 (decision D24): a step from a user mode either stays in it, changing
no memory, status, segment, limit, bound or fault register and no register or flag outside its own set but general
registers of the system set; or it traps to system mode, changing no register but ssp and no flag. -/
def Obligations.UserModeStepIsConfined : Prop :=
  ∀ s t : State, s.mode = .user1 ∨ s.mode = .user2 → step s = .next t →
    (SameStatus s t ∧ SameRegs (fun m _ => m = s.mode ∨ m = .system) s t ∧ SameFlags (fun m => m = s.mode) s t ∧
      SameSegments nowhere2 s t ∧ SameVcs s t ∧ SameFaultRegs s t ∧ SameMemory nowhere s t) ∨
    (t.mode = .system ∧ SameRegs (fun m r => m = .system ∧ r = 31#5) s t ∧ SameFlags nowhere s t ∧
      SameSegments (fun m k => m = .system ∧ (k = .cs ∨ k = .csl)) s t)

/-- 10_state.md sections 5 and 9, 40_immediate_operate.md section 1 (decision D11, log 18): a step that changes a flag of
any mode ran a compare or RTI, and one that changes RF ran RTI. -/
def Obligations.StatusBitsChangeOnlyByCompareOrRti : Prop :=
  ∀ s t : State, step s = .next t →
    ((∃ m, (t.bank m).flags ≠ (s.bank m).flags) →
      ∃ i, s.decodeNext = .ok i ∧ i.mnemonic ∈ ["CMPI", "CMPI.L", "CMP", "RTI"]) ∧
    (t.rf ≠ s.rf → ∃ i, s.decodeNext = .ok i ∧ i.mnemonic = "RTI")

/-- 60_exceptions.md section 2 (decision D30, log 24): a step that changes a fault register took an exception: the fetch
bounds exception, or Priv by JMF, MFSPR or RTI in a user mode. -/
def Obligations.FaultRegistersChangeOnlyByExceptions : Prop :=
  ∀ s t : State, step s = .next t → ¬ SameFaultRegs s t →
    (s.bank s.mode).csl.toNat < s.pc.toNat ∨
      ((s.mode = .user1 ∨ s.mode = .user2) ∧
        ∃ i, s.decodeNext = .ok i ∧ i.mnemonic ∈ ["JMF", "MFSPR", "RTI"])

/-- 44_load_store.md (the spec marks it derived): a step that changes a memory location pushed a trap frame there: it ends
in system mode with ssp four lower, and the location is one of the four of the frame. -/
def Obligations.MemoryChangesOnlyByTrapFrames : Prop :=
  ∀ (s t : State) (a : LinAddr), step s = .next t → t.readWord a ≠ s.readWord a →
    t.mode = .system ∧ t.reg .system 31#5 = s.reg .system 31#5 - 4 ∧
      ∃ f, trapFrame (s.reg .system 31#5 - 4) (s.setMode .system) = some f ∧
        a ∈ [f.msw, f.pc, f.cs, f.csl]

/-! ## Loads and stores -/

/-- 44_load_store.md (R284), 20_memory.md sections 1 and 2 (decisions D3, D15, D16, D30; log 14, log 16, log 33): the access
every load and store makes, whatever it does with the location: the effective address is the base register plus the offset
modulo 2^32; with base register 0 to 29 the limit of the selected segment is checked, with 30 and 31 the stack bounds, and
a failing check takes the exception before anything is read or written. No instruction whose format the spec gives makes
such an access. -/
def Obligations.LoadStoreAccessIsCheckedFirst : Prop :=
  (∀ row ∈ ([(0, Bank.ds, Bank.dsl), (1, Bank.es, Bank.esl), (2, Bank.fs, Bank.fsl), (3, Bank.gs, Bank.gsl),
      (4, Bank.cs, Bank.csl), (7, Bank.ds, Bank.dsl)] : List (Nat × (Bank → Word) × (Bank → Word))),
    ∀ (base : Reg) (offset : Word) (body : LinAddr → Result) (s : State) (ea : Nat),
      ea = ((s.reg s.mode base).toNat + offset.toNat) % 2 ^ 32 → ea / 2 ^ 29 = row.1 →
      if base.toNat ≤ 29 ∧ (row.2.2 (s.bank s.mode)).toNat < ea % 2 ^ 29 then
        ∀ f, s.PushesFrame f →
          ∃ t, accessMemory base offset body s = .next t ∧ ExceptionTaken Config.vecBounds f s t ∧
            t.faultAddr.toNat = ea % 2 ^ 29 ∧ t.faultSeg = row.2.1 (s.bank s.mode)
      else if 30 ≤ base.toNat ∧ (ea % 2 ^ 29 < ((s.bank s.mode).sl.toNat + 4) % 2 ^ 32 ∨
          (s.bank s.mode).su.toNat < ea % 2 ^ 29) then
        ∀ f, s.PushesFrame f →
          ∃ t, accessMemory base offset body s = .next t ∧ ExceptionTaken Config.vecStack f s t ∧
            t.faultAddr.toNat = ea % 2 ^ 29 ∧ t.faultSeg = row.2.1 (s.bank s.mode)
      else
        ∃ a, accessMemory base offset body s = body a ∧
          a.toNat = ((row.2.1 (s.bank s.mode)).toNat * 4096 + ea % 2 ^ 29) % 2 ^ 44) ∧
  ∀ (base : Reg) (offset : Word) (body : LinAddr → Result) (s : State) (ea : Nat),
    ea = ((s.reg s.mode base).toNat + offset.toNat) % 2 ^ 32 → ea / 2 ^ 29 = 5 ∨ ea / 2 ^ 29 = 6 →
    accessMemory base offset body s = .refused .reservedSelector
end

