-- ==== Sys2Proof/Laws/State.lean ====
section
/-! SUPPORT. Laws/State.lean: one lemma for each field and each update of the state, so that no proof unfolds a record
update; then reading a register set, a register and the flags after each update. -/

namespace Sys2Proof.Machine

variable (s : State)

/-! ### setMode -/

@[simp] theorem State.setMode_mode (m : Mode) : (s.setMode m).mode = m := rfl
@[simp] theorem State.setMode_im (m : Mode) : (s.setMode m).im = s.im := rfl
@[simp] theorem State.setMode_rf (m : Mode) : (s.setMode m).rf = s.rf := rfl
@[simp] theorem State.setMode_pc (m : Mode) : (s.setMode m).pc = s.pc := rfl
@[simp] theorem State.setMode_vcs (m : Mode) : (s.setMode m).vcs = s.vcs := rfl
@[simp] theorem State.setMode_faultPc (m : Mode) : (s.setMode m).faultPc = s.faultPc := rfl
@[simp] theorem State.setMode_faultCs (m : Mode) : (s.setMode m).faultCs = s.faultCs := rfl
@[simp] theorem State.setMode_faultAddr (m : Mode) : (s.setMode m).faultAddr = s.faultAddr := rfl
@[simp] theorem State.setMode_faultSeg (m : Mode) : (s.setMode m).faultSeg = s.faultSeg := rfl
@[simp] theorem State.setMode_mem (m : Mode) : (s.setMode m).mem = s.mem := rfl
@[simp] theorem State.setMode_resetPending (m : Mode) : (s.setMode m).resetPending = s.resetPending := rfl
@[simp] theorem State.setMode_draws (m : Mode) : (s.setMode m).draws = s.draws := rfl
@[simp] theorem State.setMode_bank (m : Mode) (k : Mode) : (s.setMode m).bank k = s.bank k := rfl
@[simp] theorem State.setMode_reg (m : Mode) (k : Mode) (q : Reg) : (s.setMode m).reg k q = s.reg k q := rfl
@[simp] theorem State.setMode_readWord (m : Mode) (x : LinAddr) : (s.setMode m).readWord x = s.readWord x := rfl

/-! ### setIm -/

@[simp] theorem State.setIm_mode (v : Bool) : (s.setIm v).mode = s.mode := rfl
@[simp] theorem State.setIm_im (v : Bool) : (s.setIm v).im = v := rfl
@[simp] theorem State.setIm_rf (v : Bool) : (s.setIm v).rf = s.rf := rfl
@[simp] theorem State.setIm_pc (v : Bool) : (s.setIm v).pc = s.pc := rfl
@[simp] theorem State.setIm_vcs (v : Bool) : (s.setIm v).vcs = s.vcs := rfl
@[simp] theorem State.setIm_faultPc (v : Bool) : (s.setIm v).faultPc = s.faultPc := rfl
@[simp] theorem State.setIm_faultCs (v : Bool) : (s.setIm v).faultCs = s.faultCs := rfl
@[simp] theorem State.setIm_faultAddr (v : Bool) : (s.setIm v).faultAddr = s.faultAddr := rfl
@[simp] theorem State.setIm_faultSeg (v : Bool) : (s.setIm v).faultSeg = s.faultSeg := rfl
@[simp] theorem State.setIm_mem (v : Bool) : (s.setIm v).mem = s.mem := rfl
@[simp] theorem State.setIm_resetPending (v : Bool) : (s.setIm v).resetPending = s.resetPending := rfl
@[simp] theorem State.setIm_draws (v : Bool) : (s.setIm v).draws = s.draws := rfl
@[simp] theorem State.setIm_bank (v : Bool) (k : Mode) : (s.setIm v).bank k = s.bank k := rfl
@[simp] theorem State.setIm_reg (v : Bool) (k : Mode) (q : Reg) : (s.setIm v).reg k q = s.reg k q := rfl
@[simp] theorem State.setIm_readWord (v : Bool) (x : LinAddr) : (s.setIm v).readWord x = s.readWord x := rfl

/-! ### setRf -/

@[simp] theorem State.setRf_mode (v : Bool) : (s.setRf v).mode = s.mode := rfl
@[simp] theorem State.setRf_im (v : Bool) : (s.setRf v).im = s.im := rfl
@[simp] theorem State.setRf_rf (v : Bool) : (s.setRf v).rf = v := rfl
@[simp] theorem State.setRf_pc (v : Bool) : (s.setRf v).pc = s.pc := rfl
@[simp] theorem State.setRf_vcs (v : Bool) : (s.setRf v).vcs = s.vcs := rfl
@[simp] theorem State.setRf_faultPc (v : Bool) : (s.setRf v).faultPc = s.faultPc := rfl
@[simp] theorem State.setRf_faultCs (v : Bool) : (s.setRf v).faultCs = s.faultCs := rfl
@[simp] theorem State.setRf_faultAddr (v : Bool) : (s.setRf v).faultAddr = s.faultAddr := rfl
@[simp] theorem State.setRf_faultSeg (v : Bool) : (s.setRf v).faultSeg = s.faultSeg := rfl
@[simp] theorem State.setRf_mem (v : Bool) : (s.setRf v).mem = s.mem := rfl
@[simp] theorem State.setRf_resetPending (v : Bool) : (s.setRf v).resetPending = s.resetPending := rfl
@[simp] theorem State.setRf_draws (v : Bool) : (s.setRf v).draws = s.draws := rfl
@[simp] theorem State.setRf_bank (v : Bool) (k : Mode) : (s.setRf v).bank k = s.bank k := rfl
@[simp] theorem State.setRf_reg (v : Bool) (k : Mode) (q : Reg) : (s.setRf v).reg k q = s.reg k q := rfl
@[simp] theorem State.setRf_readWord (v : Bool) (x : LinAddr) : (s.setRf v).readWord x = s.readWord x := rfl

/-! ### setPc -/

@[simp] theorem State.setPc_mode (v : Word) : (s.setPc v).mode = s.mode := rfl
@[simp] theorem State.setPc_im (v : Word) : (s.setPc v).im = s.im := rfl
@[simp] theorem State.setPc_rf (v : Word) : (s.setPc v).rf = s.rf := rfl
@[simp] theorem State.setPc_pc (v : Word) : (s.setPc v).pc = v := rfl
@[simp] theorem State.setPc_vcs (v : Word) : (s.setPc v).vcs = s.vcs := rfl
@[simp] theorem State.setPc_faultPc (v : Word) : (s.setPc v).faultPc = s.faultPc := rfl
@[simp] theorem State.setPc_faultCs (v : Word) : (s.setPc v).faultCs = s.faultCs := rfl
@[simp] theorem State.setPc_faultAddr (v : Word) : (s.setPc v).faultAddr = s.faultAddr := rfl
@[simp] theorem State.setPc_faultSeg (v : Word) : (s.setPc v).faultSeg = s.faultSeg := rfl
@[simp] theorem State.setPc_mem (v : Word) : (s.setPc v).mem = s.mem := rfl
@[simp] theorem State.setPc_resetPending (v : Word) : (s.setPc v).resetPending = s.resetPending := rfl
@[simp] theorem State.setPc_draws (v : Word) : (s.setPc v).draws = s.draws := rfl
@[simp] theorem State.setPc_bank (v : Word) (k : Mode) : (s.setPc v).bank k = s.bank k := rfl
@[simp] theorem State.setPc_reg (v : Word) (k : Mode) (q : Reg) : (s.setPc v).reg k q = s.reg k q := rfl
@[simp] theorem State.setPc_readWord (v : Word) (x : LinAddr) : (s.setPc v).readWord x = s.readWord x := rfl

/-! ### setMem -/

@[simp] theorem State.setMem_mode (m : Memory) : (s.setMem m).mode = s.mode := rfl
@[simp] theorem State.setMem_im (m : Memory) : (s.setMem m).im = s.im := rfl
@[simp] theorem State.setMem_rf (m : Memory) : (s.setMem m).rf = s.rf := rfl
@[simp] theorem State.setMem_pc (m : Memory) : (s.setMem m).pc = s.pc := rfl
@[simp] theorem State.setMem_vcs (m : Memory) : (s.setMem m).vcs = s.vcs := rfl
@[simp] theorem State.setMem_faultPc (m : Memory) : (s.setMem m).faultPc = s.faultPc := rfl
@[simp] theorem State.setMem_faultCs (m : Memory) : (s.setMem m).faultCs = s.faultCs := rfl
@[simp] theorem State.setMem_faultAddr (m : Memory) : (s.setMem m).faultAddr = s.faultAddr := rfl
@[simp] theorem State.setMem_faultSeg (m : Memory) : (s.setMem m).faultSeg = s.faultSeg := rfl
@[simp] theorem State.setMem_mem (m : Memory) : (s.setMem m).mem = m := rfl
@[simp] theorem State.setMem_resetPending (m : Memory) : (s.setMem m).resetPending = s.resetPending := rfl
@[simp] theorem State.setMem_draws (m : Memory) : (s.setMem m).draws = s.draws := rfl
@[simp] theorem State.setMem_bank (m : Memory) (k : Mode) : (s.setMem m).bank k = s.bank k := rfl
@[simp] theorem State.setMem_reg (m : Memory) (k : Mode) (q : Reg) : (s.setMem m).reg k q = s.reg k q := rfl

/-! ### setBank -/

@[simp] theorem State.setBank_mode (m : Mode) (b : Bank) : (s.setBank m b).mode = s.mode := rfl
@[simp] theorem State.setBank_im (m : Mode) (b : Bank) : (s.setBank m b).im = s.im := rfl
@[simp] theorem State.setBank_rf (m : Mode) (b : Bank) : (s.setBank m b).rf = s.rf := rfl
@[simp] theorem State.setBank_pc (m : Mode) (b : Bank) : (s.setBank m b).pc = s.pc := rfl
@[simp] theorem State.setBank_vcs (m : Mode) (b : Bank) : (s.setBank m b).vcs = s.vcs := rfl
@[simp] theorem State.setBank_faultPc (m : Mode) (b : Bank) : (s.setBank m b).faultPc = s.faultPc := rfl
@[simp] theorem State.setBank_faultCs (m : Mode) (b : Bank) : (s.setBank m b).faultCs = s.faultCs := rfl
@[simp] theorem State.setBank_faultAddr (m : Mode) (b : Bank) : (s.setBank m b).faultAddr = s.faultAddr := rfl
@[simp] theorem State.setBank_faultSeg (m : Mode) (b : Bank) : (s.setBank m b).faultSeg = s.faultSeg := rfl
@[simp] theorem State.setBank_mem (m : Mode) (b : Bank) : (s.setBank m b).mem = s.mem := rfl
@[simp] theorem State.setBank_resetPending (m : Mode) (b : Bank) : (s.setBank m b).resetPending = s.resetPending := rfl
@[simp] theorem State.setBank_draws (m : Mode) (b : Bank) : (s.setBank m b).draws = s.draws := rfl
@[simp] theorem State.setBank_readWord (m : Mode) (b : Bank) (x : LinAddr) : (s.setBank m b).readWord x = s.readWord x := rfl

/-! ### setFaultCode -/

@[simp] theorem State.setFaultCode_mode (p c : Word) : (s.setFaultCode p c).mode = s.mode := rfl
@[simp] theorem State.setFaultCode_im (p c : Word) : (s.setFaultCode p c).im = s.im := rfl
@[simp] theorem State.setFaultCode_rf (p c : Word) : (s.setFaultCode p c).rf = s.rf := rfl
@[simp] theorem State.setFaultCode_pc (p c : Word) : (s.setFaultCode p c).pc = s.pc := rfl
@[simp] theorem State.setFaultCode_vcs (p c : Word) : (s.setFaultCode p c).vcs = s.vcs := rfl
@[simp] theorem State.setFaultCode_faultPc (p c : Word) : (s.setFaultCode p c).faultPc = p := rfl
@[simp] theorem State.setFaultCode_faultCs (p c : Word) : (s.setFaultCode p c).faultCs = c := rfl
@[simp] theorem State.setFaultCode_faultAddr (p c : Word) : (s.setFaultCode p c).faultAddr = s.faultAddr := rfl
@[simp] theorem State.setFaultCode_faultSeg (p c : Word) : (s.setFaultCode p c).faultSeg = s.faultSeg := rfl
@[simp] theorem State.setFaultCode_mem (p c : Word) : (s.setFaultCode p c).mem = s.mem := rfl
@[simp] theorem State.setFaultCode_resetPending (p c : Word) : (s.setFaultCode p c).resetPending = s.resetPending := rfl
@[simp] theorem State.setFaultCode_draws (p c : Word) : (s.setFaultCode p c).draws = s.draws := rfl
@[simp] theorem State.setFaultCode_bank (p c : Word) (k : Mode) : (s.setFaultCode p c).bank k = s.bank k := rfl
@[simp] theorem State.setFaultCode_reg (p c : Word) (k : Mode) (q : Reg) : (s.setFaultCode p c).reg k q = s.reg k q := rfl
@[simp] theorem State.setFaultCode_readWord (p c : Word) (x : LinAddr) : (s.setFaultCode p c).readWord x = s.readWord x := rfl

/-! ### setFaultData -/

@[simp] theorem State.setFaultData_mode (o g : Word) : (s.setFaultData o g).mode = s.mode := rfl
@[simp] theorem State.setFaultData_im (o g : Word) : (s.setFaultData o g).im = s.im := rfl
@[simp] theorem State.setFaultData_rf (o g : Word) : (s.setFaultData o g).rf = s.rf := rfl
@[simp] theorem State.setFaultData_pc (o g : Word) : (s.setFaultData o g).pc = s.pc := rfl
@[simp] theorem State.setFaultData_vcs (o g : Word) : (s.setFaultData o g).vcs = s.vcs := rfl
@[simp] theorem State.setFaultData_faultPc (o g : Word) : (s.setFaultData o g).faultPc = s.faultPc := rfl
@[simp] theorem State.setFaultData_faultCs (o g : Word) : (s.setFaultData o g).faultCs = s.faultCs := rfl
@[simp] theorem State.setFaultData_faultAddr (o g : Word) : (s.setFaultData o g).faultAddr = o := rfl
@[simp] theorem State.setFaultData_faultSeg (o g : Word) : (s.setFaultData o g).faultSeg = g := rfl
@[simp] theorem State.setFaultData_mem (o g : Word) : (s.setFaultData o g).mem = s.mem := rfl
@[simp] theorem State.setFaultData_resetPending (o g : Word) : (s.setFaultData o g).resetPending = s.resetPending := rfl
@[simp] theorem State.setFaultData_draws (o g : Word) : (s.setFaultData o g).draws = s.draws := rfl
@[simp] theorem State.setFaultData_bank (o g : Word) (k : Mode) : (s.setFaultData o g).bank k = s.bank k := rfl
@[simp] theorem State.setFaultData_reg (o g : Word) (k : Mode) (q : Reg) : (s.setFaultData o g).reg k q = s.reg k q := rfl
@[simp] theorem State.setFaultData_readWord (o g : Word) (x : LinAddr) : (s.setFaultData o g).readWord x = s.readWord x := rfl

/-! ### endReset -/

@[simp] theorem State.endReset_mode : s.endReset.mode = s.mode := rfl
@[simp] theorem State.endReset_im : s.endReset.im = s.im := rfl
@[simp] theorem State.endReset_rf : s.endReset.rf = s.rf := rfl
@[simp] theorem State.endReset_pc : s.endReset.pc = s.pc := rfl
@[simp] theorem State.endReset_vcs : s.endReset.vcs = s.vcs := rfl
@[simp] theorem State.endReset_faultPc : s.endReset.faultPc = s.faultPc := rfl
@[simp] theorem State.endReset_faultCs : s.endReset.faultCs = s.faultCs := rfl
@[simp] theorem State.endReset_faultAddr : s.endReset.faultAddr = s.faultAddr := rfl
@[simp] theorem State.endReset_faultSeg : s.endReset.faultSeg = s.faultSeg := rfl
@[simp] theorem State.endReset_mem : s.endReset.mem = s.mem := rfl
@[simp] theorem State.endReset_resetPending : s.endReset.resetPending = false := rfl
@[simp] theorem State.endReset_draws : s.endReset.draws = s.draws := rfl
@[simp] theorem State.endReset_bank (k : Mode) : s.endReset.bank k = s.bank k := rfl
@[simp] theorem State.endReset_reg (k : Mode) (q : Reg) : s.endReset.reg k q = s.reg k q := rfl
@[simp] theorem State.endReset_readWord (x : LinAddr) : s.endReset.readWord x = s.readWord x := rfl

/-! ### tick -/

@[simp] theorem State.tick_mode : s.tick.mode = s.mode := rfl
@[simp] theorem State.tick_im : s.tick.im = s.im := rfl
@[simp] theorem State.tick_rf : s.tick.rf = s.rf := rfl
@[simp] theorem State.tick_pc : s.tick.pc = s.pc := rfl
@[simp] theorem State.tick_vcs : s.tick.vcs = s.vcs := rfl
@[simp] theorem State.tick_faultPc : s.tick.faultPc = s.faultPc := rfl
@[simp] theorem State.tick_faultCs : s.tick.faultCs = s.faultCs := rfl
@[simp] theorem State.tick_faultAddr : s.tick.faultAddr = s.faultAddr := rfl
@[simp] theorem State.tick_faultSeg : s.tick.faultSeg = s.faultSeg := rfl
@[simp] theorem State.tick_mem : s.tick.mem = s.mem := rfl
@[simp] theorem State.tick_resetPending : s.tick.resetPending = s.resetPending := rfl
@[simp] theorem State.tick_draws : s.tick.draws = s.draws + 1 := rfl
@[simp] theorem State.tick_bank (k : Mode) : s.tick.bank k = s.bank k := rfl
@[simp] theorem State.tick_reg (k : Mode) (q : Reg) : s.tick.reg k q = s.reg k q := rfl
@[simp] theorem State.tick_readWord (x : LinAddr) : s.tick.readWord x = s.readWord x := rfl

/-! ### setReg -/

@[simp] theorem State.setReg_mode (m : Mode) (r : Reg) (v : Word) : (s.setReg m r v).mode = s.mode := rfl
@[simp] theorem State.setReg_im (m : Mode) (r : Reg) (v : Word) : (s.setReg m r v).im = s.im := rfl
@[simp] theorem State.setReg_rf (m : Mode) (r : Reg) (v : Word) : (s.setReg m r v).rf = s.rf := rfl
@[simp] theorem State.setReg_pc (m : Mode) (r : Reg) (v : Word) : (s.setReg m r v).pc = s.pc := rfl
@[simp] theorem State.setReg_vcs (m : Mode) (r : Reg) (v : Word) : (s.setReg m r v).vcs = s.vcs := rfl
@[simp] theorem State.setReg_faultPc (m : Mode) (r : Reg) (v : Word) : (s.setReg m r v).faultPc = s.faultPc := rfl
@[simp] theorem State.setReg_faultCs (m : Mode) (r : Reg) (v : Word) : (s.setReg m r v).faultCs = s.faultCs := rfl
@[simp] theorem State.setReg_faultAddr (m : Mode) (r : Reg) (v : Word) : (s.setReg m r v).faultAddr = s.faultAddr := rfl
@[simp] theorem State.setReg_faultSeg (m : Mode) (r : Reg) (v : Word) : (s.setReg m r v).faultSeg = s.faultSeg := rfl
@[simp] theorem State.setReg_mem (m : Mode) (r : Reg) (v : Word) : (s.setReg m r v).mem = s.mem := rfl
@[simp] theorem State.setReg_resetPending (m : Mode) (r : Reg) (v : Word) : (s.setReg m r v).resetPending = s.resetPending := rfl
@[simp] theorem State.setReg_draws (m : Mode) (r : Reg) (v : Word) : (s.setReg m r v).draws = s.draws := rfl
@[simp] theorem State.setReg_readWord (m : Mode) (r : Reg) (v : Word) (x : LinAddr) : (s.setReg m r v).readWord x = s.readWord x := rfl

/-! ### setFlags -/

@[simp] theorem State.setFlags_mode (m : Mode) (f : Flags) : (s.setFlags m f).mode = s.mode := rfl
@[simp] theorem State.setFlags_im (m : Mode) (f : Flags) : (s.setFlags m f).im = s.im := rfl
@[simp] theorem State.setFlags_rf (m : Mode) (f : Flags) : (s.setFlags m f).rf = s.rf := rfl
@[simp] theorem State.setFlags_pc (m : Mode) (f : Flags) : (s.setFlags m f).pc = s.pc := rfl
@[simp] theorem State.setFlags_vcs (m : Mode) (f : Flags) : (s.setFlags m f).vcs = s.vcs := rfl
@[simp] theorem State.setFlags_faultPc (m : Mode) (f : Flags) : (s.setFlags m f).faultPc = s.faultPc := rfl
@[simp] theorem State.setFlags_faultCs (m : Mode) (f : Flags) : (s.setFlags m f).faultCs = s.faultCs := rfl
@[simp] theorem State.setFlags_faultAddr (m : Mode) (f : Flags) : (s.setFlags m f).faultAddr = s.faultAddr := rfl
@[simp] theorem State.setFlags_faultSeg (m : Mode) (f : Flags) : (s.setFlags m f).faultSeg = s.faultSeg := rfl
@[simp] theorem State.setFlags_mem (m : Mode) (f : Flags) : (s.setFlags m f).mem = s.mem := rfl
@[simp] theorem State.setFlags_resetPending (m : Mode) (f : Flags) : (s.setFlags m f).resetPending = s.resetPending := rfl
@[simp] theorem State.setFlags_draws (m : Mode) (f : Flags) : (s.setFlags m f).draws = s.draws := rfl
@[simp] theorem State.setFlags_readWord (m : Mode) (f : Flags) (x : LinAddr) : (s.setFlags m f).readWord x = s.readWord x := rfl

/-! ### setCode -/

@[simp] theorem State.setCode_mode (m : Mode) (cs csl : Word) : (s.setCode m cs csl).mode = s.mode := rfl
@[simp] theorem State.setCode_im (m : Mode) (cs csl : Word) : (s.setCode m cs csl).im = s.im := rfl
@[simp] theorem State.setCode_rf (m : Mode) (cs csl : Word) : (s.setCode m cs csl).rf = s.rf := rfl
@[simp] theorem State.setCode_pc (m : Mode) (cs csl : Word) : (s.setCode m cs csl).pc = s.pc := rfl
@[simp] theorem State.setCode_vcs (m : Mode) (cs csl : Word) : (s.setCode m cs csl).vcs = s.vcs := rfl
@[simp] theorem State.setCode_faultPc (m : Mode) (cs csl : Word) : (s.setCode m cs csl).faultPc = s.faultPc := rfl
@[simp] theorem State.setCode_faultCs (m : Mode) (cs csl : Word) : (s.setCode m cs csl).faultCs = s.faultCs := rfl
@[simp] theorem State.setCode_faultAddr (m : Mode) (cs csl : Word) : (s.setCode m cs csl).faultAddr = s.faultAddr := rfl
@[simp] theorem State.setCode_faultSeg (m : Mode) (cs csl : Word) : (s.setCode m cs csl).faultSeg = s.faultSeg := rfl
@[simp] theorem State.setCode_mem (m : Mode) (cs csl : Word) : (s.setCode m cs csl).mem = s.mem := rfl
@[simp] theorem State.setCode_resetPending (m : Mode) (cs csl : Word) : (s.setCode m cs csl).resetPending = s.resetPending := rfl
@[simp] theorem State.setCode_draws (m : Mode) (cs csl : Word) : (s.setCode m cs csl).draws = s.draws := rfl
@[simp] theorem State.setCode_readWord (m : Mode) (cs csl : Word) (x : LinAddr) : (s.setCode m cs csl).readWord x = s.readWord x := rfl

/-! ### setSp -/

@[simp] theorem State.setSp_mode (m : Mode) (v : Word) : (s.setSp m v).mode = s.mode := rfl
@[simp] theorem State.setSp_im (m : Mode) (v : Word) : (s.setSp m v).im = s.im := rfl
@[simp] theorem State.setSp_rf (m : Mode) (v : Word) : (s.setSp m v).rf = s.rf := rfl
@[simp] theorem State.setSp_pc (m : Mode) (v : Word) : (s.setSp m v).pc = s.pc := rfl
@[simp] theorem State.setSp_vcs (m : Mode) (v : Word) : (s.setSp m v).vcs = s.vcs := rfl
@[simp] theorem State.setSp_faultPc (m : Mode) (v : Word) : (s.setSp m v).faultPc = s.faultPc := rfl
@[simp] theorem State.setSp_faultCs (m : Mode) (v : Word) : (s.setSp m v).faultCs = s.faultCs := rfl
@[simp] theorem State.setSp_faultAddr (m : Mode) (v : Word) : (s.setSp m v).faultAddr = s.faultAddr := rfl
@[simp] theorem State.setSp_faultSeg (m : Mode) (v : Word) : (s.setSp m v).faultSeg = s.faultSeg := rfl
@[simp] theorem State.setSp_mem (m : Mode) (v : Word) : (s.setSp m v).mem = s.mem := rfl
@[simp] theorem State.setSp_resetPending (m : Mode) (v : Word) : (s.setSp m v).resetPending = s.resetPending := rfl
@[simp] theorem State.setSp_draws (m : Mode) (v : Word) : (s.setSp m v).draws = s.draws := rfl
@[simp] theorem State.setSp_readWord (m : Mode) (v : Word) (x : LinAddr) : (s.setSp m v).readWord x = s.readWord x := rfl

/-! ### advance -/

@[simp] theorem State.advance_mode (n : Word) : (s.advance n).mode = s.mode := rfl
@[simp] theorem State.advance_im (n : Word) : (s.advance n).im = s.im := rfl
@[simp] theorem State.advance_rf (n : Word) : (s.advance n).rf = s.rf := rfl
@[simp] theorem State.advance_pc (n : Word) : (s.advance n).pc = s.pc + n := rfl
@[simp] theorem State.advance_vcs (n : Word) : (s.advance n).vcs = s.vcs := rfl
@[simp] theorem State.advance_faultPc (n : Word) : (s.advance n).faultPc = s.faultPc := rfl
@[simp] theorem State.advance_faultCs (n : Word) : (s.advance n).faultCs = s.faultCs := rfl
@[simp] theorem State.advance_faultAddr (n : Word) : (s.advance n).faultAddr = s.faultAddr := rfl
@[simp] theorem State.advance_faultSeg (n : Word) : (s.advance n).faultSeg = s.faultSeg := rfl
@[simp] theorem State.advance_mem (n : Word) : (s.advance n).mem = s.mem := rfl
@[simp] theorem State.advance_resetPending (n : Word) : (s.advance n).resetPending = s.resetPending := rfl
@[simp] theorem State.advance_draws (n : Word) : (s.advance n).draws = s.draws := rfl
@[simp] theorem State.advance_bank (n : Word) (k : Mode) : (s.advance n).bank k = s.bank k := rfl
@[simp] theorem State.advance_reg (n : Word) (k : Mode) (q : Reg) : (s.advance n).reg k q = s.reg k q := rfl
@[simp] theorem State.advance_readWord (n : Word) (x : LinAddr) : (s.advance n).readWord x = s.readWord x := rfl

/-! ### writeWord -/

@[simp] theorem State.writeWord_mode (a : LinAddr) (v : Word) : (s.writeWord a v).mode = s.mode := rfl
@[simp] theorem State.writeWord_im (a : LinAddr) (v : Word) : (s.writeWord a v).im = s.im := rfl
@[simp] theorem State.writeWord_rf (a : LinAddr) (v : Word) : (s.writeWord a v).rf = s.rf := rfl
@[simp] theorem State.writeWord_pc (a : LinAddr) (v : Word) : (s.writeWord a v).pc = s.pc := rfl
@[simp] theorem State.writeWord_vcs (a : LinAddr) (v : Word) : (s.writeWord a v).vcs = s.vcs := rfl
@[simp] theorem State.writeWord_faultPc (a : LinAddr) (v : Word) : (s.writeWord a v).faultPc = s.faultPc := rfl
@[simp] theorem State.writeWord_faultCs (a : LinAddr) (v : Word) : (s.writeWord a v).faultCs = s.faultCs := rfl
@[simp] theorem State.writeWord_faultAddr (a : LinAddr) (v : Word) : (s.writeWord a v).faultAddr = s.faultAddr := rfl
@[simp] theorem State.writeWord_faultSeg (a : LinAddr) (v : Word) : (s.writeWord a v).faultSeg = s.faultSeg := rfl
@[simp] theorem State.writeWord_mem (a : LinAddr) (v : Word) : (s.writeWord a v).mem = s.mem.store a.toNat v := rfl
@[simp] theorem State.writeWord_resetPending (a : LinAddr) (v : Word) : (s.writeWord a v).resetPending = s.resetPending := rfl
@[simp] theorem State.writeWord_draws (a : LinAddr) (v : Word) : (s.writeWord a v).draws = s.draws := rfl
@[simp] theorem State.writeWord_bank (a : LinAddr) (v : Word) (k : Mode) : (s.writeWord a v).bank k = s.bank k := rfl
@[simp] theorem State.writeWord_reg (a : LinAddr) (v : Word) (k : Mode) (q : Reg) : (s.writeWord a v).reg k q = s.reg k q := rfl

/-! ### placeWord -/

@[simp] theorem State.placeWord_mode (k w : Word) : (s.placeWord k w).mode = s.mode := rfl
@[simp] theorem State.placeWord_im (k w : Word) : (s.placeWord k w).im = s.im := rfl
@[simp] theorem State.placeWord_rf (k w : Word) : (s.placeWord k w).rf = s.rf := rfl
@[simp] theorem State.placeWord_pc (k w : Word) : (s.placeWord k w).pc = s.pc := rfl
@[simp] theorem State.placeWord_vcs (k w : Word) : (s.placeWord k w).vcs = s.vcs := rfl
@[simp] theorem State.placeWord_faultPc (k w : Word) : (s.placeWord k w).faultPc = s.faultPc := rfl
@[simp] theorem State.placeWord_faultCs (k w : Word) : (s.placeWord k w).faultCs = s.faultCs := rfl
@[simp] theorem State.placeWord_faultAddr (k w : Word) : (s.placeWord k w).faultAddr = s.faultAddr := rfl
@[simp] theorem State.placeWord_faultSeg (k w : Word) : (s.placeWord k w).faultSeg = s.faultSeg := rfl
@[simp] theorem State.placeWord_resetPending (k w : Word) : (s.placeWord k w).resetPending = s.resetPending := rfl
@[simp] theorem State.placeWord_draws (k w : Word) : (s.placeWord k w).draws = s.draws := rfl
@[simp] theorem State.placeWord_bank (j w : Word) (k : Mode) : (s.placeWord j w).bank k = s.bank k := rfl
@[simp] theorem State.placeWord_reg (j w : Word) (k : Mode) (q : Reg) : (s.placeWord j w).reg k q = s.reg k q := rfl

/-! ### writeFrame -/

@[simp] theorem State.writeFrame_mode (f : FrameAddrs) (msw pc cs csl : Word) : (s.writeFrame f msw pc cs csl).mode = s.mode := rfl
@[simp] theorem State.writeFrame_im (f : FrameAddrs) (msw pc cs csl : Word) : (s.writeFrame f msw pc cs csl).im = s.im := rfl
@[simp] theorem State.writeFrame_rf (f : FrameAddrs) (msw pc cs csl : Word) : (s.writeFrame f msw pc cs csl).rf = s.rf := rfl
@[simp] theorem State.writeFrame_pc (f : FrameAddrs) (msw pc cs csl : Word) : (s.writeFrame f msw pc cs csl).pc = s.pc := rfl
@[simp] theorem State.writeFrame_vcs (f : FrameAddrs) (msw pc cs csl : Word) : (s.writeFrame f msw pc cs csl).vcs = s.vcs := rfl
@[simp] theorem State.writeFrame_faultPc (f : FrameAddrs) (msw pc cs csl : Word) : (s.writeFrame f msw pc cs csl).faultPc = s.faultPc := rfl
@[simp] theorem State.writeFrame_faultCs (f : FrameAddrs) (msw pc cs csl : Word) : (s.writeFrame f msw pc cs csl).faultCs = s.faultCs := rfl
@[simp] theorem State.writeFrame_faultAddr (f : FrameAddrs) (msw pc cs csl : Word) : (s.writeFrame f msw pc cs csl).faultAddr = s.faultAddr := rfl
@[simp] theorem State.writeFrame_faultSeg (f : FrameAddrs) (msw pc cs csl : Word) : (s.writeFrame f msw pc cs csl).faultSeg = s.faultSeg := rfl
@[simp] theorem State.writeFrame_resetPending (f : FrameAddrs) (msw pc cs csl : Word) : (s.writeFrame f msw pc cs csl).resetPending = s.resetPending := rfl
@[simp] theorem State.writeFrame_draws (f : FrameAddrs) (msw pc cs csl : Word) : (s.writeFrame f msw pc cs csl).draws = s.draws := rfl
@[simp] theorem State.writeFrame_bank (f : FrameAddrs) (msw pc cs csl : Word) (k : Mode) : (s.writeFrame f msw pc cs csl).bank k = s.bank k := rfl
@[simp] theorem State.writeFrame_reg (f : FrameAddrs) (msw pc cs csl : Word) (k : Mode) (q : Reg) : (s.writeFrame f msw pc cs csl).reg k q = s.reg k q := rfl

/-! ### Register sets -/

@[simp] theorem PerMode.get_set {α : Type} (p : PerMode α) (m k : Mode) (a : α) :
    (p.set m a).get k = if k = m then a else p.get k := by
  cases m <;> cases k <;> rfl

@[simp] theorem State.setBank_bank (m : Mode) (b : Bank) (k : Mode) :
    (s.setBank m b).bank k = if k = m then b else s.bank k :=
  PerMode.get_set s.banks m k b

@[simp] theorem State.setReg_bank (m : Mode) (r : Reg) (v : Word) (k : Mode) :
    (s.setReg m r v).bank k = if k = m then (s.bank m).setReg r v else s.bank k :=
  State.setBank_bank s m _ k

@[simp] theorem State.setFlags_bank (m : Mode) (f : Flags) (k : Mode) :
    (s.setFlags m f).bank k = if k = m then { s.bank m with flags := f } else s.bank k :=
  State.setBank_bank s m _ k

@[simp] theorem State.setCode_bank (m : Mode) (cs csl : Word) (k : Mode) :
    (s.setCode m cs csl).bank k = if k = m then { s.bank m with cs := cs, csl := csl } else s.bank k :=
  State.setBank_bank s m _ k

@[simp] theorem State.setSp_bank (m : Mode) (v : Word) (k : Mode) :
    (s.setSp m v).bank k = if k = m then { s.bank m with sp := v } else s.bank k :=
  State.setBank_bank s m _ k

/-- Two states with the same banks have the same register sets. -/
theorem State.bank_ext {s t : State} (h : ∀ m, t.bank m = s.bank m) : t.banks = s.banks := by
  have h1 := h .user1
  have h2 := h .user2
  have h3 := h .system
  have h4 := h .debug
  cases hs : s.banks
  cases ht : t.banks
  simp_all [State.bank, PerMode.get]

/-! ### One register of a set -/

/-- The index of r1 to r30 in `gpr`. -/
theorem gprIndex_lt {q : Reg} (h31 : q ≠ 31#5) : q.toNat - 1 < 30 := by
  have h2 : q.toNat ≠ 31 := fun h => h31 (BitVec.eq_of_toNat_eq (by simpa using h))
  have := q.isLt
  omega

/-- Two registers of r1 to r30 with one index are one register. -/
theorem gprIndex_inj {q r : Reg} (hq : q ≠ 0#5) (hr : r ≠ 0#5) (h : q.toNat - 1 = r.toNat - 1) : q = r := by
  have h1 : q.toNat ≠ 0 := fun h => hq (BitVec.eq_of_toNat_eq (by simpa using h))
  have h2 : r.toNat ≠ 0 := fun h => hr (BitVec.eq_of_toNat_eq (by simpa using h))
  exact BitVec.eq_of_toNat_eq (by omega)

/-- A register after a write of a register: the one written reads as the value (r0 as zero), every other as before. -/
theorem Bank.reg_setReg (b : Bank) (r q : Reg) (v : Word) :
    (b.setReg r v).reg q = if q = r ∧ r ≠ 0#5 then v else b.reg q := by
  by_cases hr : r = 0#5
  · simp [Bank.setReg, hr]
  by_cases h31 : r = 31#5
  · subst h31
    by_cases hq : q = 31#5 <;> simp [Bank.setReg, Bank.reg, hq]
  by_cases hqr : q = r
  · subst hqr
    simp [Bank.setReg, Bank.reg, hr, h31, Vector.getD, gprIndex_lt h31]
  by_cases hq0 : q = 0#5
  · simp [Bank.reg, hq0, hr, Ne.symm hr]
  by_cases hq31 : q = 31#5
  · simp [Bank.reg, Bank.setReg, hq31, hr, h31, Ne.symm h31]
  · have hn : r.toNat - 1 ≠ q.toNat - 1 := fun h => hqr (gprIndex_inj hr hq0 h).symm
    simp [Bank.setReg, Bank.reg, hr, h31, hq0, hq31, hqr, Vector.getD, gprIndex_lt hq31, hn]

@[simp] theorem Bank.reg_zero (b : Bank) : b.reg 0#5 = 0 := by simp [Bank.reg]

@[simp] theorem Bank.reg_stackPointer (b : Bank) : b.reg 31#5 = b.sp := by simp [Bank.reg]

@[simp] theorem Bank.setReg_zero (b : Bank) (v : Word) : b.setReg 0#5 v = b := by simp [Bank.setReg]

@[simp] theorem Bank.setReg_flags (b : Bank) (r : Reg) (v : Word) : (b.setReg r v).flags = b.flags := by
  unfold Bank.setReg; split <;> [rfl; (split <;> rfl)]
@[simp] theorem Bank.setReg_ds (b : Bank) (r : Reg) (v : Word) : (b.setReg r v).ds = b.ds := by
  unfold Bank.setReg; split <;> [rfl; (split <;> rfl)]
@[simp] theorem Bank.setReg_es (b : Bank) (r : Reg) (v : Word) : (b.setReg r v).es = b.es := by
  unfold Bank.setReg; split <;> [rfl; (split <;> rfl)]
@[simp] theorem Bank.setReg_fs (b : Bank) (r : Reg) (v : Word) : (b.setReg r v).fs = b.fs := by
  unfold Bank.setReg; split <;> [rfl; (split <;> rfl)]
@[simp] theorem Bank.setReg_gs (b : Bank) (r : Reg) (v : Word) : (b.setReg r v).gs = b.gs := by
  unfold Bank.setReg; split <;> [rfl; (split <;> rfl)]
@[simp] theorem Bank.setReg_cs (b : Bank) (r : Reg) (v : Word) : (b.setReg r v).cs = b.cs := by
  unfold Bank.setReg; split <;> [rfl; (split <;> rfl)]
@[simp] theorem Bank.setReg_dsl (b : Bank) (r : Reg) (v : Word) : (b.setReg r v).dsl = b.dsl := by
  unfold Bank.setReg; split <;> [rfl; (split <;> rfl)]
@[simp] theorem Bank.setReg_esl (b : Bank) (r : Reg) (v : Word) : (b.setReg r v).esl = b.esl := by
  unfold Bank.setReg; split <;> [rfl; (split <;> rfl)]
@[simp] theorem Bank.setReg_fsl (b : Bank) (r : Reg) (v : Word) : (b.setReg r v).fsl = b.fsl := by
  unfold Bank.setReg; split <;> [rfl; (split <;> rfl)]
@[simp] theorem Bank.setReg_gsl (b : Bank) (r : Reg) (v : Word) : (b.setReg r v).gsl = b.gsl := by
  unfold Bank.setReg; split <;> [rfl; (split <;> rfl)]
@[simp] theorem Bank.setReg_csl (b : Bank) (r : Reg) (v : Word) : (b.setReg r v).csl = b.csl := by
  unfold Bank.setReg; split <;> [rfl; (split <;> rfl)]
@[simp] theorem Bank.setReg_sl (b : Bank) (r : Reg) (v : Word) : (b.setReg r v).sl = b.sl := by
  unfold Bank.setReg; split <;> [rfl; (split <;> rfl)]
@[simp] theorem Bank.setReg_su (b : Bank) (r : Reg) (v : Word) : (b.setReg r v).su = b.su := by
  unfold Bank.setReg; split <;> [rfl; (split <;> rfl)]

@[simp] theorem Bank.setReg_special (b : Bank) (r : Reg) (v : Word) (k : BankReg) (hk : k ≠ .sp) :
    (b.setReg r v).special k = b.special k := by
  cases k <;> simp_all [Bank.special]

@[simp] theorem Bank.flags_reg (b : Bank) (f : Flags) (q : Reg) : ({ b with flags := f } : Bank).reg q = b.reg q := rfl

@[simp] theorem Bank.code_reg (b : Bank) (cs csl : Word) (q : Reg) :
    ({ b with cs := cs, csl := csl } : Bank).reg q = b.reg q := rfl

/-- Moving the stack pointer of a set changes its r31 alone. -/
theorem Bank.sp_reg (b : Bank) (v : Word) (q : Reg) :
    ({ b with sp := v } : Bank).reg q = if q = 31#5 then v else b.reg q := by
  unfold Bank.reg
  by_cases h : q = 31#5 <;> simp [h]

@[simp] theorem Bank.flags_special (b : Bank) (f : Flags) (k : BankReg) :
    ({ b with flags := f } : Bank).special k = b.special k := by cases k <;> rfl

theorem Bank.sp_special (b : Bank) (v : Word) (k : BankReg) (hk : k ≠ .sp) :
    ({ b with sp := v } : Bank).special k = b.special k := by cases k <;> simp_all [Bank.special]

theorem Bank.code_special (b : Bank) (cs csl : Word) (k : BankReg) (h1 : k ≠ .cs) (h2 : k ≠ .csl) :
    ({ b with cs := cs, csl := csl } : Bank).special k = b.special k := by cases k <;> simp_all [Bank.special]

/-! ### One register of the state -/

/-- A register after a write of a register (R8, R22). -/
theorem State.setReg_reg (m : Mode) (r : Reg) (v : Word) (k : Mode) (q : Reg) :
    (s.setReg m r v).reg k q = if k = m ∧ q = r ∧ r ≠ 0#5 then v else s.reg k q := by
  unfold State.reg
  by_cases h : k = m
  · subst h; simp [Bank.reg_setReg]
  · simp [h]

@[simp] theorem State.setFlags_reg (m : Mode) (f : Flags) (k : Mode) (q : Reg) :
    (s.setFlags m f).reg k q = s.reg k q := by
  unfold State.reg
  by_cases h : k = m <;> simp [h]

@[simp] theorem State.setCode_reg (m : Mode) (cs csl : Word) (k : Mode) (q : Reg) :
    (s.setCode m cs csl).reg k q = s.reg k q := by
  unfold State.reg
  by_cases h : k = m <;> simp [h]

/-- A register after a stack pointer is written: r31 of that set alone changes (R23). -/
theorem State.setSp_reg (m : Mode) (v : Word) (k : Mode) (q : Reg) :
    (s.setSp m v).reg k q = if k = m ∧ q = 31#5 then v else s.reg k q := by
  unfold State.reg
  by_cases h : k = m
  · subst h; simp [Bank.sp_reg]
  · simp [h]

end Sys2Proof.Machine
end

