-- ==== Sys2Proof/Laws/Memory.lean ====
section
/-! SUPPORT. Laws/Memory.lean: a read after a write, and that every memory operation keeps the canonical form. -/

namespace Sys2Proof.Machine

/-- A location after a store: the one stored to holds the word, every other what it held. -/
theorem Memory.lookup_store (m : Memory) (a : Nat) (v : Word) (b : Nat) :
    (Memory.store m a v).lookup b = if b = a then some v else Memory.lookup m b := by
  induction m with
  | nil => simp [Memory.store, Memory.lookup, eq_comm]
  | cons c m ih =>
    obtain ⟨k, u⟩ := c
    unfold Memory.store
    split
    · simp [Memory.lookup, eq_comm]
    · split
      · next h =>
        subst h
        by_cases hb : b = a
        · simp [Memory.lookup, hb]
        · simp [Memory.lookup, hb, Ne.symm hb]
      · next h => by_cases hb : k = b <;> simp_all [Memory.lookup, eq_comm]

/-- The form of a memory with a first entry. -/
theorem Memory.wfFrom_cons {lo a : Nat} {v : Word} {m : Memory} :
    Memory.wfFrom lo ((a, v) :: m) = true ↔ lo ≤ a ∧ a < 2 ^ 44 ∧ Memory.wfFrom (a + 1) m = true := by
  simp [Memory.wfFrom, and_assoc]

/-- A memory that rises from `lo` on also rises from any lower address on. -/
theorem Memory.wfFrom_mono {m : Memory} {lo lo' : Nat} (h : lo' ≤ lo) (hm : Memory.wfFrom lo m = true) :
    Memory.wfFrom lo' m = true := by
  cases m with
  | nil => rfl
  | cons c m =>
    obtain ⟨h1, h2⟩ := Memory.wfFrom_cons.1 hm
    exact Memory.wfFrom_cons.2 ⟨h.trans h1, h2⟩

/-- A store keeps the canonical form above any lower end at or below the address stored to. -/
theorem Memory.wfFrom_store (m : Memory) (lo a : Nat) (v : Word) (hm : Memory.wfFrom lo m = true) (ha : lo ≤ a)
    (hb : a < 2 ^ 44) : Memory.wfFrom lo (Memory.store m a v) = true := by
  induction m generalizing lo with
  | nil => exact Memory.wfFrom_cons.2 ⟨ha, hb, rfl⟩
  | cons c m ih =>
    obtain ⟨k, u⟩ := c
    obtain ⟨hk, hk2, hr⟩ := Memory.wfFrom_cons.1 hm
    unfold Memory.store
    split
    · next h => exact Memory.wfFrom_cons.2 ⟨ha, hb, Memory.wfFrom_cons.2 ⟨h, hk2, hr⟩⟩
    · split
      · next h => subst h; exact Memory.wfFrom_cons.2 ⟨ha, hb, hr⟩
      · exact Memory.wfFrom_cons.2 ⟨hk, hk2, ih (k + 1) hr (by omega)⟩

/-- A store at a linear address keeps the canonical form. -/
theorem Memory.wf_store (m : Memory) (a : LinAddr) (v : Word) (hm : m.wf = true) :
    (Memory.store m a.toNat v).wf = true :=
  Memory.wfFrom_store m 0 a.toNat v hm (Nat.zero_le _) a.isLt

/-- A read after a write: the location written gives the word, every other what it gave. -/
theorem State.writeWord_readWord (s : State) (a : LinAddr) (v : Word) (b : LinAddr) :
    (s.writeWord a v).readWord b = if b = a then v else s.readWord b := by
  unfold State.readWord
  by_cases h : b = a
  · simp [Memory.lookup_store, h]
  · have : b.toNat ≠ a.toNat := fun e => h (BitVec.eq_of_toNat_eq e)
    simp [Memory.lookup_store, h, this]

/-- A write of a word keeps the invariant. -/
theorem State.writeWord_inv (s : State) (a : LinAddr) (v : Word) (h : s.Inv) : (s.writeWord a v).Inv :=
  Memory.wf_store s.mem a v h

/-- Writing a trap frame keeps the invariant. -/
theorem State.writeFrame_inv (s : State) (f : FrameAddrs) (msw pc cs csl : Word) (h : s.Inv) :
    (s.writeFrame f msw pc cs csl).Inv :=
  State.writeWord_inv _ _ _ (State.writeWord_inv _ _ _ (State.writeWord_inv _ _ _ (State.writeWord_inv _ _ _ h)))

/-- Placing an instruction's word keeps the invariant. -/
theorem State.placeWord_inv (s : State) (k w : Word) (h : s.Inv) : (s.placeWord k w).Inv :=
  State.writeWord_inv _ _ _ h

/-- The invariant is about memory alone. -/
theorem State.inv_of_mem {s t : State} (h : s.Inv) (hm : t.mem = s.mem) : t.Inv := by
  unfold State.Inv at *
  rw [hm]
  exact h

/-- A location after a trap frame is written, where the four addresses differ: each holds its word (R240). -/
theorem State.writeFrame_readWord (s : State) (f : FrameAddrs) (msw pc cs csl : Word) (b : LinAddr) :
    (s.writeFrame f msw pc cs csl).readWord b =
      if b = f.msw then msw else if b = f.pc then pc else if b = f.cs then cs else if b = f.csl then csl
      else s.readWord b := by
  simp only [State.writeFrame, State.writeWord_readWord]

end Sys2Proof.Machine
end

