-- ==== Sys2Proof/Laws/Ops.lean ====
section
/-! SUPPORT. Laws/Ops.lean: for each shared operation one lemma that says all it can do, to be cited in place of its
definition. -/

namespace Sys2Proof.Machine

/-! ## Shapes of an answer -/

@[simp] theorem next_eq_iff (s t : State) : (Host.Outcome.next s : Result) = .next t ↔ t = s :=
  ⟨fun h => by cases h; rfl, fun h => by rw [h]⟩

@[simp] theorem fault_ne_next (e : Fault) (t : State) : ((Host.Outcome.fault e : Result) = .next t) = False :=
  eq_false fun h => by cases h

@[simp] theorem refused_ne_next (e : Refusal) (t : State) : ((Host.Outcome.refused e : Result) = .next t) = False :=
  eq_false fun h => by cases h

/-- `writeX` answers the register written and pc advanced, and nothing else (R160). -/
theorem writeX_eq (rt : Reg) (v n : Word) (s : State) :
    writeX rt v n s = .next ((s.setReg s.mode rt v).setPc (s.pc + n)) := rfl

/-- `compareX` answers the flags written, one draw, and pc advanced (R141, R148). -/
theorem compareX_eq (a b n : Word) (s : State) :
    compareX a b n s =
      .next (((s.setFlags s.mode (compareFlags a b (Config.cmpOddFlag s.draws a b))).tick).setPc (s.pc + n)) := rfl

/-- `branch` answers pc assigned, and nothing else (R200). -/
theorem branch_eq (taken : Bool) (imm : BitVec 17) (s : State) :
    branch taken imm s = .next (s.setPc (if taken then branchTarget s.pc imm else s.pc + 1)) := rfl

/-- `inferred` is the meaning inside the inferred format, a refusal outside it (D26). -/
theorem inferred_eq (ok : Bool) (r : Result) :
    inferred ok r = if ok = true then r else .refused .mapOnlyInstruction := by
  simp [inferred, Config.admitInferred]

/-- `privileged` is the body in modes 2 and 3, the Priv exception in modes 0 and 1 (R250). -/
theorem privileged_eq (body : Result) (s : State) :
    privileged body s = if s.mode.isUser = true then takeException .priv s else body := rfl

/-! ## Modes -/

@[simp] theorem Mode.ofBits_bits (m : Mode) : Mode.ofBits m.bits = m := by cases m <;> rfl

theorem Mode.bits_ofBits (b : BitVec 2) : (Mode.ofBits b).bits = b := by
  revert b; decide

theorem Mode.isUser_iff (m : Mode) : m.isUser = true ↔ m = .user1 ∨ m = .user2 := by cases m <;> simp [Mode.isUser]

/-! ## Addresses -/

/-- A concatenation as a number: the high part shifted past the low part. -/
theorem toNat_append_add {n m : Nat} (a : BitVec n) (b : BitVec m) : (a ++ b).toNat = a.toNat * 2 ^ m + b.toNat := by
  rw [BitVec.toNat_append, ← Nat.shiftLeft_add_eq_or_of_lt b.isLt, Nat.shiftLeft_eq]

/-- The linear address as a number: (segment * 4096 + offset) modulo 2^44 (R71). -/
theorem lin_toNat (seg off : Word) : (lin seg off).toNat = (seg.toNat * 4096 + off.toNat) % 2 ^ 44 := by
  have h := off.isLt
  simp only [lin, BitVec.toNat_add, BitVec.toNat_append, BitVec.toNat_setWidth, BitVec.toNat_ofNat]
  rw [Nat.shiftLeft_eq]
  simp only [Nat.zero_mod, Nat.or_zero]
  omega

/-- Two offsets of one segment, both of 32 bits, that differ have different linear addresses. -/
theorem lin_inj (seg : Word) {a b : Word} (h : lin seg a = lin seg b) : a = b := by
  have h' := congrArg BitVec.toNat h
  rw [lin_toNat, lin_toNat] at h'
  have ha := a.isLt
  have hb := b.isLt
  exact BitVec.eq_of_toNat_eq (by omega)

/-- The selector of an effective address as a number (R74). -/
theorem selector_toNat (ea : Word) : (ea.extractLsb' 29 3).toNat = ea.toNat / 2 ^ 29 := by
  rw [BitVec.extractLsb'_toNat, Nat.shiftRight_eq_div_pow]
  omega

/-- The offset of an effective address as a number (R74). -/
theorem offsetOf_toNat (ea : Word) : (offsetOf ea).toNat = ea.toNat % 2 ^ 29 := by
  simp only [offsetOf, BitVec.toNat_setWidth, BitVec.extractLsb'_toNat, Nat.shiftRight_eq_div_pow]
  omega

/-- Everything selecting a segment can do: name a row of R72, or be reserved (R73). -/
theorem selectSegment_cases (ea : Word) :
    (∃ g, selectSegment (ea.extractLsb' 29 3) = some g ∧
      (ea.toNat / 2 ^ 29, fun b => Bank.segment b g) ∈ selectorRows) ∨
    (selectSegment (ea.extractLsb' 29 3) = none ∧ (ea.toNat / 2 ^ 29 = 5 ∨ ea.toNat / 2 ^ 29 = 6)) := by
  rw [← selector_toNat]
  generalize ea.extractLsb' 29 3 = x
  have h : x = 0#3 ∨ x = 1#3 ∨ x = 2#3 ∨ x = 3#3 ∨ x = 4#3 ∨ x = 5#3 ∨ x = 6#3 ∨ x = 7#3 := by
    revert x; decide
  rcases h with rfl | rfl | rfl | rfl | rfl | rfl | rfl | rfl
  · exact .inl ⟨.ds, rfl, by simp [selectorRows, Bank.segment]⟩
  · exact .inl ⟨.es, rfl, by simp [selectorRows, Bank.segment]⟩
  · exact .inl ⟨.fs, rfl, by simp [selectorRows, Bank.segment]⟩
  · exact .inl ⟨.gs, rfl, by simp [selectorRows, Bank.segment]⟩
  · exact .inl ⟨.cs, rfl, by simp [selectorRows, Bank.segment]⟩
  · exact .inr ⟨rfl, .inl rfl⟩
  · exact .inr ⟨rfl, .inr rfl⟩
  · exact .inl ⟨.ds, rfl, by simp [selectorRows, Bank.segment]⟩

/-- Two rows of R72 with one selector are one row. -/
theorem selectorRows_unique {k : Nat} {f g : Bank → Word} (hf : (k, f) ∈ selectorRows) (hg : (k, g) ∈ selectorRows) :
    f = g := by
  simp only [selectorRows, List.mem_cons, Prod.mk.injEq, List.not_mem_nil, or_false] at hf hg
  rcases hf with ⟨rfl, rfl⟩ | ⟨rfl, rfl⟩ | ⟨rfl, rfl⟩ | ⟨rfl, rfl⟩ | ⟨rfl, rfl⟩ | ⟨rfl, rfl⟩ <;> simpa [eq_comm] using hg

/-- A push or pop made in system mode is the access of location `a` exactly where `StackWordAt` says so (R82). -/
theorem trapAddr_iff {ea : Word} {s : State} {a : LinAddr} (hm : s.mode = .system) :
    trapAddr ea s = some a ↔ s.StackWordAt ea a := by
  have hl := lin_toNat
  rcases selectSegment_cases ea with ⟨g, hg, hr⟩ | ⟨hg, h5⟩
  · have hb : outsideStack (s.bank .system) (offsetOf ea) 0 = false ↔
        (s.bank .system).sl.toNat ≤ ea.toNat % 2 ^ 29 ∧ ea.toNat % 2 ^ 29 ≤ (s.bank .system).su.toNat := by
      simp [outsideStack, BitVec.lt_def, offsetOf_toNat]
    constructor
    · intro h
      by_cases ho : outsideStack (s.bank .system) (offsetOf ea) 0 = true
      · simp only [trapAddr, dataAddr, hm, hg, ho, if_true] at h
        cases h
      · simp only [trapAddr, dataAddr, hm, hg, ho] at h
        simp only [if_true, Bool.false_eq_true, if_false, Option.some.injEq] at h
        have hb' := hb.1 (by simpa using ho)
        exact ⟨_, hr, rfl, hb'.1, hb'.2, by rw [← h, hl, offsetOf_toNat]⟩
    · rintro ⟨⟨k, seg⟩, hk, h1, h2, h3, h4⟩
      subst h1
      obtain rfl := selectorRows_unique hk hr
      have ho := hb.2 ⟨h2, h3⟩
      simp only [trapAddr, dataAddr, hm, hg, ho, if_true, Bool.false_eq_true, if_false, Option.some.injEq]
      exact BitVec.eq_of_toNat_eq (by rw [hl, offsetOf_toNat, h4])
  · constructor
    · intro h
      simp [trapAddr, dataAddr, hg] at h
    · rintro ⟨⟨k, seg⟩, hk, h1, -⟩
      exfalso
      simp only [selectorRows, List.mem_cons, Prod.mk.injEq, List.not_mem_nil, or_false] at hk
      simp only at h1
      omega

/-- A trap frame passes, in system mode, with the locations `f` exactly where `FrameAt` says so (R82). -/
theorem trapFrame_iff {ea : Word} {s : State} {f : FrameAddrs} (hm : s.mode = .system) :
    trapFrame ea s = some f ↔ s.FrameAt ea f := by
  unfold State.FrameAt
  rw [← trapAddr_iff hm, ← trapAddr_iff hm, ← trapAddr_iff hm, ← trapAddr_iff hm]
  cases f
  unfold trapFrame
  cases trapAddr ea s <;> cases trapAddr (ea + 1) s <;> cases trapAddr (ea + 2) s <;> cases trapAddr (ea + 3) s <;> simp

/-- The same in any mode: the register set of a trap sequence is the system set, whatever the mode it begins in. -/
theorem State.frameAt_iff (s : State) (ea : Word) (f : FrameAddrs) :
    s.FrameAt ea f ↔ trapFrame ea (s.setMode .system) = some f :=
  (trapFrame_iff (s := s.setMode .system) rfl).symm

/-- A location of the stack has the last twelve bits of its effective address: a segment is a multiple of 4096 (R71). -/
theorem State.StackWordAt.mod {s : State} {ea : Word} {a : LinAddr} (h : s.StackWordAt ea a) :
    a.toNat % 4096 = ea.toNat % 4096 := by
  obtain ⟨row, -, -, -, -, h4⟩ := h
  omega

/-- The four locations of a frame differ, whatever segments hold them. -/
theorem State.FrameAt.distinct {s : State} {ea : Word} {f : FrameAddrs} (h : s.FrameAt ea f) :
    f.msw ≠ f.pc ∧ f.msw ≠ f.cs ∧ f.msw ≠ f.csl ∧ f.pc ≠ f.cs ∧ f.pc ≠ f.csl ∧ f.cs ≠ f.csl := by
  have h0 := h.1.mod
  have h1 := h.2.1.mod
  have h2 := h.2.2.1.mod
  have h3 := h.2.2.2.mod
  have hb := ea.isLt
  simp only [BitVec.toNat_add, BitVec.reduceToNat] at h1 h2 h3
  refine ⟨?_, ?_, ?_, ?_, ?_, ?_⟩ <;> intro e <;> have := congrArg BitVec.toNat e <;> omega

/-! ## Traps -/

/-- The state in which the pushes of BrkSequence are made (R240). -/
def trapState (s : State) : State := ((s.setMode .system).setIm (s.im || Config.brkSetsIm)).tick

/-- Everything BrkSequence can do: take the frame below ssp and enter the vector, or be stuck (R240, R311). -/
theorem brkSequence_eq (vector : VectorNo) (savedPc : Word) (s : State) :
    brkSequence vector savedPc s =
      match trapFrame ((s.bank .system).sp - 4) (trapState s) with
      | none => .fault .faultInTrapSequence
      | some f =>
        .next (((((trapState s).writeFrame f (s.mswImage s.mode (Config.mswUnused s.draws)) savedPc
          (s.bank s.mode).cs (s.bank s.mode).csl).setSp .system ((s.bank .system).sp - 4)).setCode .system s.vcs
            2047).setPc (vector.setWidth 32 * 4)) := rfl

/-- Where the frame below ssp occupies `f`, BrkSequence writes it there and enters the vector (R240). -/
theorem brkSequence_of_pushesFrame (vector : VectorNo) (savedPc : Word) {s : State} {f : FrameAddrs}
    (h : s.PushesFrame f) :
    brkSequence vector savedPc s =
      .next (((((trapState s).writeFrame f (s.mswImage s.mode (Config.mswUnused s.draws)) savedPc
        (s.bank s.mode).cs (s.bank s.mode).csl).setSp .system ((s.bank .system).sp - 4)).setCode .system s.vcs
          2047).setPc (vector.setWidth 32 * 4)) := by
  have hf : trapFrame ((s.bank .system).sp - 4) (trapState s) = some f := (trapFrame_iff rfl).2 h
  rw [brkSequence_eq, hf]

/-- If BrkSequence answers a next state, the frame below ssp was good and the state is the one the rule gives. -/
theorem brkSequence_next {vector : VectorNo} {savedPc : Word} {s t : State}
    (h : brkSequence vector savedPc s = .next t) :
    ∃ f, trapFrame ((s.bank .system).sp - 4) (trapState s) = some f ∧
      t = ((((trapState s).writeFrame f (s.mswImage s.mode (Config.mswUnused s.draws)) savedPc
          (s.bank s.mode).cs (s.bank s.mode).csl).setSp .system ((s.bank .system).sp - 4)).setCode .system s.vcs
            2047).setPc (vector.setWidth 32 * 4) := by
  rw [brkSequence_eq] at h
  split at h
  · simp at h
  · next f hf => exact ⟨f, hf, (next_eq_iff _ _).1 h⟩

/-- The fault registers after an exception is recorded, and what recording it leaves alone (R304). -/
theorem recordFault_eq (e : Exn) (s : State) :
    s.recordFault e =
      match e with
      | .boundsData off seg => (s.setFaultCode s.pc (s.bank s.mode).cs).setFaultData off seg
      | .stackFault off seg => (s.setFaultCode s.pc (s.bank s.mode).cs).setFaultData off seg
      | .priv => s.setFaultCode s.pc (s.bank s.mode).cs
      | .boundsFetch => s.setFaultCode s.pc (s.bank s.mode).cs := by
  cases e <;> rfl

@[simp] theorem recordFault_bank (e : Exn) (s : State) (m : Mode) : (s.recordFault e).bank m = s.bank m := by
  cases e <;> rfl
@[simp] theorem recordFault_mode (e : Exn) (s : State) : (s.recordFault e).mode = s.mode := by cases e <;> rfl
@[simp] theorem recordFault_im (e : Exn) (s : State) : (s.recordFault e).im = s.im := by cases e <;> rfl
@[simp] theorem recordFault_rf (e : Exn) (s : State) : (s.recordFault e).rf = s.rf := by cases e <;> rfl
@[simp] theorem recordFault_pc (e : Exn) (s : State) : (s.recordFault e).pc = s.pc := by cases e <;> rfl
@[simp] theorem recordFault_vcs (e : Exn) (s : State) : (s.recordFault e).vcs = s.vcs := by cases e <;> rfl
@[simp] theorem recordFault_mem (e : Exn) (s : State) : (s.recordFault e).mem = s.mem := by cases e <;> rfl
@[simp] theorem recordFault_draws (e : Exn) (s : State) : (s.recordFault e).draws = s.draws := by cases e <;> rfl
@[simp] theorem recordFault_resetPending (e : Exn) (s : State) :
    (s.recordFault e).resetPending = s.resetPending := by cases e <;> rfl

@[simp] theorem recordFault_readWord (e : Exn) (s : State) (a : LinAddr) :
    (s.recordFault e).readWord a = s.readWord a := by cases e <;> rfl

@[simp] theorem recordFault_faultPc (e : Exn) (s : State) : (s.recordFault e).faultPc = s.pc := by cases e <;> rfl
@[simp] theorem recordFault_faultCs (e : Exn) (s : State) : (s.recordFault e).faultCs = (s.bank s.mode).cs := by
  cases e <;> rfl

@[simp] theorem trapState_bank (s : State) (m : Mode) : (trapState s).bank m = s.bank m := rfl
@[simp] theorem trapState_reg (s : State) (m : Mode) (r : Reg) : (trapState s).reg m r = s.reg m r := rfl
@[simp] theorem trapState_mode (s : State) : (trapState s).mode = .system := rfl
@[simp] theorem trapState_im (s : State) : (trapState s).im = (s.im || Config.brkSetsIm) := rfl
@[simp] theorem trapState_rf (s : State) : (trapState s).rf = s.rf := rfl
@[simp] theorem trapState_vcs (s : State) : (trapState s).vcs = s.vcs := rfl
@[simp] theorem trapState_mem (s : State) : (trapState s).mem = s.mem := rfl
@[simp] theorem trapState_readWord (s : State) (a : LinAddr) : (trapState s).readWord a = s.readWord a := rfl
@[simp] theorem trapState_faultPc (s : State) : (trapState s).faultPc = s.faultPc := rfl
@[simp] theorem trapState_faultCs (s : State) : (trapState s).faultCs = s.faultCs := rfl
@[simp] theorem trapState_faultAddr (s : State) : (trapState s).faultAddr = s.faultAddr := rfl
@[simp] theorem trapState_faultSeg (s : State) : (trapState s).faultSeg = s.faultSeg := rfl
@[simp] theorem trapState_resetPending (s : State) : (trapState s).resetPending = s.resetPending := rfl

/-- Taking an exception is BrkSequence after the fault registers are written (R303). -/
theorem takeException_eq (e : Exn) (s : State) :
    takeException e s = brkSequence e.vector s.pc (s.recordFault e) := rfl

/-- Everything an ordinary access can do: the body at the address, the exception, or the refusal (R83, R284). -/
theorem accessMemory_eq (base : Reg) (offset : Word) (body : LinAddr → Result) (s : State) :
    accessMemory base offset body s =
      match dataAddr (s.reg s.mode base + offset) (decide (30 ≤ base.toNat)) Config.stackMargin s with
      | .address a => body a
      | .raised e => takeException e s
      | .refused r => .refused r := rfl

/-- The register sets and status after the pops of RTI (R242). -/
theorem returnFromTrap_eq (f : FrameAddrs) (s : State) :
    returnFromTrap f s =
      ((((s.setSp .system ((s.bank .system).sp + 4)).writeMsw (s.readWord f.msw)).setCode
        (Mode.ofBits (modeBitsOfMsw (s.readWord f.msw))) (s.readWord f.cs) (s.readWord f.csl)).setPc
          (s.readWord f.pc)) := rfl

/-- Writing the MSW touches Mode, IM, RF and the flags of the new mode, and no memory (R29). -/
theorem writeMsw_eq (w : Word) (s : State) :
    s.writeMsw w =
      (((s.setMode (Mode.ofBits (modeBitsOfMsw w))).setIm (imOfMsw w)).setRf (rfOfMsw w)).setFlags
        (Mode.ofBits (modeBitsOfMsw w)) (flagsOfMsw w) := rfl

/-- A poll changes nothing but the draw counter, and delivers nothing while IM = 1 (R305, R306). -/
theorem pollInterrupt_eq (s : State) :
    pollInterrupt s = if s.im = true then (none, s) else (Config.interruptRequest s.draws, s.tick) := rfl

/-! ## The step -/

/-- Everything a step can do: the reset BRK, a hardware interrupt, a fetch outside the code limit, an instruction, or
the refusal of a word (R308, R341). `u` is the state after the poll. -/
theorem step_cases {s t : State} (h : step s = .next t) :
    (s.resetPending = true ∧ resetBrk s = .next t) ∨
    (s.resetPending = false ∧ s.im = false ∧
      ∃ v, Config.interruptRequest s.draws = some v ∧ takeInterrupt v s.tick = .next t) ∨
    (s.resetPending = false ∧ ∃ u, (u = s ∨ (s.im = false ∧ u = s.tick)) ∧
      ((u.pcOutOfBounds = true ∧ takeException .boundsFetch u = .next t) ∨
        (u.pcOutOfBounds = false ∧ ∃ i, u.decodeNext = .ok i ∧ exec i u = .next t))) := by
  have run : ∀ u : State, runInstruction u = .next t →
      (u.pcOutOfBounds = true ∧ takeException .boundsFetch u = .next t) ∨
        (u.pcOutOfBounds = false ∧ ∃ i, u.decodeNext = .ok i ∧ exec i u = .next t) := by
    intro u hu
    unfold runInstruction at hu
    split at hu
    · next hb => exact .inl ⟨hb, hu⟩
    · next hb =>
      split at hu
      · next i hi => exact .inr ⟨by simpa using hb, i, hi, hu⟩
      · simp at hu
  unfold step at h
  split at h
  · next hr => exact .inl ⟨hr, h⟩
  · next hr =>
    have hr' : s.resetPending = false := by simpa using hr
    rw [pollInterrupt_eq] at h
    by_cases him : s.im = true
    · simp only [him, if_true] at h
      exact .inr (.inr ⟨hr', s, .inl rfl, run s h⟩)
    · have him' : s.im = false := by simpa using him
      rw [if_neg him] at h
      cases hq : Config.interruptRequest s.draws with
      | none =>
        rw [hq] at h
        exact .inr (.inr ⟨hr', s.tick, .inr ⟨him', rfl⟩, run s.tick (by simpa using h)⟩)
      | some v =>
        rw [hq] at h
        exact .inr (.inl ⟨hr', him', v, rfl, by simpa using h⟩)

end Sys2Proof.Machine
end

