-- ==== Sys2Proof/Laws/Frames.lean ====
section
/-! SUPPORT. Laws/Frames.lean: what the shared shapes of an answer leave unchanged, in the terms of Safety.lean, and what
the flags of a compare say of the numbers compared. -/

namespace Sys2Proof.Machine

/-- Register 0 of every set reads as zero (R22). -/
theorem State.reg_zero (s : State) (m : Mode) : s.reg m 0#5 = 0 := by simp [State.reg]

/-- Assigning pc changes pc alone. -/
theorem State.setPc_onlyPcChanges (s : State) (v : Word) : OnlyPcChanges s (s.setPc v) := by
  refine ⟨?_, ?_, ?_, ?_, ?_, ?_, ?_⟩ <;>
    simp [SameRegs, SameFlags, SameSegments, SameStatus, SameVcs, SameFaultRegs, SameMemory]

/-- Assigning pc after a draw changes pc and the draw counter alone. -/
theorem State.tick_setPc_onlyPcChanges (s : State) (v : Word) : OnlyPcChanges s (s.tick.setPc v) := by
  refine ⟨?_, ?_, ?_, ?_, ?_, ?_, ?_⟩ <;>
    simp [SameRegs, SameFlags, SameSegments, SameStatus, SameVcs, SameFaultRegs, SameMemory]

/-- Writing a register and assigning pc changes that register and pc alone. -/
theorem State.setReg_setPc_onlyRegChanges (s : State) (m : Mode) (r : Reg) (v pc : Word) :
    OnlyRegChanges m r v s ((s.setReg m r v).setPc pc) := by
  refine ⟨?_, ?_, ?_, ?_, ?_, ?_, ?_, ?_⟩
  · by_cases h : r = 0#5
    · subst h; simp [State.reg_zero]
    · simp [State.setReg_reg, h]
  · intro k q h
    simp [State.setReg_reg]
    intro a b
    exact absurd ⟨a, b⟩ h
  · intro k _
    by_cases h : k = m <;> simp [h]
  · intro k q hq _
    by_cases h : k = m
    · subst h; simp [hq]
    · simp [h]
  all_goals simp [SameStatus, SameVcs, SameFaultRegs, SameMemory]

/-- Writing the flags of the current mode, drawing once and assigning pc changes those flags and pc alone. -/
theorem State.setFlags_setPc_onlyFlagsChange (s : State) (f : Flags) (pc : Word) :
    OnlyFlagsChange s.mode s (((s.setFlags s.mode f).tick).setPc pc) := by
  refine ⟨?_, ?_, ?_, ?_, ?_, ?_, ?_⟩
  · intro k q _; simp
  · intro k h; simp [h]
  · intro k q hq _
    by_cases h : k = s.mode
    · subst h; simp
    · simp [h]
  all_goals simp [SameStatus, SameVcs, SameFaultRegs, SameMemory]

/-- The flags a compare computes are those of the numbers compared (R148). -/
theorem compareFlags_isCompare (a b : Word) (odd : Bool) : IsCompare a b (compareFlags a b odd) := by
  refine ⟨rfl, ?_, ?_, ?_⟩
  · by_cases h : a = b <;> simp [compareFlags, h]
  · simp only [compareFlags, BitVec.msb_eq_toInt]
  · simp only [compareFlags, BitVec.msb_eq_toInt, BitVec.toInt_sub]
    have ha := a.toInt_lt
    have ha' := a.le_toInt
    have hb := b.toInt_lt
    have hb' := b.le_toInt
    simp only [Nat.reduceSub, Nat.reducePow] at *
    rw [Bool.eq_iff_iff]
    simp
    generalize a.toInt = x at *
    generalize b.toInt = y at *
    have h0 : Int.bmod (x - y) 4294967296 = x - y ∨ Int.bmod (x - y) 4294967296 = x - y - 4294967296 ∨
        Int.bmod (x - y) 4294967296 = x - y + 4294967296 := by
      rw [Int.bmod_def]; split <;> omega
    have h1 := Int.bmod_lt (x := x - y) (m := 4294967296) (by decide)
    have h2 := Int.le_bmod (x := x - y) (m := 4294967296) (by decide)
    simp at h1 h2
    generalize Int.bmod (x - y) 4294967296 = z at *
    by_cases hx : x < 0 <;> by_cases hy : y < 0 <;> by_cases hz : z < 0 <;> simp [hx, hy, hz] <;> omega

/-- The MSW image holds Mode, the flags, RF and IM in its defined bits, whatever its unused bits (R29). -/
theorem mswWord_isMswImage (modeBits : BitVec 2) (f : Flags) (rf im : Bool) (unused : Word) :
    IsMswImage (mswWord modeBits f rf im unused) modeBits f rf im := by
  unfold IsMswImage mswWord
  refine ⟨?_, ?_, ?_, ?_, ?_, ?_, ?_, ?_⟩
  · apply BitVec.eq_of_getLsbD_eq
    intro i hi
    simp only [BitVec.getLsbD_extractLsb', BitVec.getLsbD_append]
    interval_cases i <;> simp
  all_goals
    simp only [BitVec.getLsbD_append]
    simp

end Sys2Proof.Machine
end

