-- ==== Sys2Proof/Laws/Exec.lean ====
section
/-! SUPPORT. Laws/Exec.lean: everything an instruction can do when it answers a next state, said once over all
instructions, so that what every step keeps is a short case analysis. -/

namespace Sys2Proof.Machine

/-- The ways an instruction `i` that answers a next state goes from `s` to `t`. -/
inductive ExecCase (i : Instr) (s t : State) : Prop where
  /-- A branch, JMP, NOP: pc is assigned, after at most one draw. -/
  | assignsPc (u : State) (pc : Word) (hu : u = s ∨ u = s.tick) (ht : t = u.setPc pc)
  /-- An operate instruction, MFSPR: a register of the current set, after at most one draw. -/
  | writesReg (u : State) (r : Reg) (v pc : Word) (hu : u = s ∨ u = s.tick) (ht : t = (u.setReg s.mode r v).setPc pc)
  /-- MOV: a register of a set that the current mode may name. -/
  | movesReg (m source : Mode) (r : Reg) (v pc : Word) (hm : movAdmitted source m s.mode = true)
      (ht : t = (s.setReg m r v).setPc pc)
  /-- A compare: the flags of the current mode, after one draw. -/
  | compares (f : Flags) (pc : Word) (hi : i.mnemonic ∈ ["CMPI", "CMPI.L", "CMP"])
      (ht : t = ((s.setFlags s.mode f).tick).setPc pc)
  /-- JMF outside the user modes: the code segment and its limit. -/
  | farJump (cs csl pc : Word) (hm : s.mode.isUser = false) (ht : t = (s.setCode s.mode cs csl).setPc pc)
  /-- BRK: the trap sequence. -/
  | breaks (vector : VectorNo) (hi : i = .brk vector) (ht : brkSequence vector (s.pc + 1) s = .next t)
  /-- JMF, MFSPR or RTI in a user mode: the Priv exception. -/
  | priv (hm : s.mode.isUser = true) (hi : i.mnemonic ∈ ["JMF", "MFSPR", "RTI"])
      (ht : takeException .priv s = .next t)
  /-- RTI in system mode: the frame is popped and a register transferred. -/
  | returns (rt ra : Reg) (f : FrameAddrs) (hm : s.mode = .system) (hi : i = .rti rt ra)
      (hf : trapFrame (s.bank .system).sp s = some f)
      (ht : t = (returnFromTrap f s).setReg (returnFromTrap f s).mode rt (s.x ra))

theorem ExecCase.of_writeX {i : Instr} {s t : State} {r : Reg} {v n : Word} (h : writeX r v n s = .next t) :
    ExecCase i s t := .writesReg s r v (s.pc + n) (.inl rfl) ((next_eq_iff _ _).1 h)

theorem ExecCase.of_branch {i : Instr} {s u t : State} {taken : Bool} {imm : BitVec 17} (hu : u = s ∨ u = s.tick)
    (h : branch taken imm u = .next t) : ExecCase i s t := .assignsPc u _ hu ((next_eq_iff _ _).1 h)

theorem ExecCase.of_compareX {i : Instr} {s t : State} {a b n : Word} (hi : i.mnemonic ∈ ["CMPI", "CMPI.L", "CMP"])
    (h : compareX a b n s = .next t) : ExecCase i s t := .compares _ _ hi ((next_eq_iff _ _).1 h)

/-- A meaning that answers inside its inferred format answered as its inferred meaning. -/
theorem inferred_next {ok : Bool} {r : Result} {t : State} (h : inferred ok r = .next t) : r = .next t := by
  rw [inferred_eq] at h
  split at h
  · exact h
  · simp at h

/-- Every instruction that answers a next state does one of these. -/
theorem exec_cases {i : Instr} {s t : State} (h : exec i s = .next t) : ExecCase i s t := by
  cases i
  case brk v => exact .breaks v rfl h
  case nop => exact .assignsPc s _ (.inl rfl) ((next_eq_iff _ _).1 (inferred_next h))
  case jmp => exact .assignsPc s _ (.inl rfl) ((next_eq_iff _ _).1 h)
  case bra => exact .of_branch (.inl rfl) h
  case bhi => exact .of_branch (.inl rfl) h
  case bls => exact .of_branch (.inl rfl) h
  case bhs => exact .of_branch (.inl rfl) h
  case blo => exact .of_branch (.inl rfl) h
  case bne => exact .of_branch (.inl rfl) h
  case beq => exact .of_branch (.inl rfl) h
  case bvc => exact .of_branch (.inl rfl) h
  case bvs => exact .of_branch (.inl rfl) h
  case bpl => exact .of_branch (.inl rfl) h
  case bmi => exact .of_branch (.inl rfl) h
  case bge => exact .of_branch (.inl rfl) h
  case blt => exact .of_branch (.inl rfl) h
  case bgt => exact .of_branch (.inl rfl) h
  case ble => exact .of_branch (.inl rfl) h
  case bev => exact .of_branch (.inl rfl) h
  case bod => exact .of_branch (.inl rfl) h
  case bpo => exact .of_branch (.inl rfl) h
  case brz => exact .of_branch (.inl rfl) h
  case bnz => exact .of_branch (.inl rfl) h
  case brp => exact .of_branch (.inl rfl) h
  case brn => exact .of_branch (.inl rfl) h
  case bxc => exact .of_branch (.inr rfl) h
  case bxs => exact .of_branch (.inr rfl) h
  case brc => exact .of_branch (.inl rfl) h
  case brs => exact .of_branch (.inl rfl) h
  case addiL => exact .of_writeX h
  case addi => exact .of_writeX h
  case andiL => exact .of_writeX h
  case andi => exact .of_writeX h
  case cmpiL => exact .of_compareX (by simp [Instr.mnemonic]) h
  case cmpi => exact .of_compareX (by simp [Instr.mnemonic]) h
  case ori =>
    simp only [exec, execOri] at h
    exact .of_writeX (inferred_next h)
  case eori =>
    simp only [exec, execEori] at h
    exact .of_writeX (inferred_next h)
  case add => exact .of_writeX h
  case andr => exact .of_writeX h
  case seg => exact .of_writeX h
  case sub => exact .of_writeX (inferred_next h)
  case orr => exact .of_writeX (inferred_next h)
  case eor => exact .of_writeX (inferred_next h)
  case nand => exact .of_writeX (inferred_next h)
  case nor => exact .of_writeX (inferred_next h)
  case enor => exact .of_writeX (inferred_next h)
  case cmp => exact .of_compareX (by simp [Instr.mnemonic]) (inferred_next h)
  case jmf =>
    simp only [exec, execJmf, privileged_eq] at h
    split at h
    · next hu => exact .priv hu (by simp [Instr.mnemonic]) h
    · next hu =>
      split at h
      · simp at h
      · split at h
        · exact .farJump _ _ _ (by simpa using hu) ((next_eq_iff _ _).1 h)
        · simp at h
  case mfspr =>
    simp only [exec, execMfspr, privileged_eq] at h
    split at h
    · next hu => exact .priv hu (by simp [Instr.mnemonic]) h
    · split at h
      · simp at h
      · split at h
        · exact .writesReg s.tick _ _ _ (.inr rfl) ((next_eq_iff _ _).1 h)
        · exact .of_writeX h
  case rti =>
    simp only [exec, execRti, privileged_eq] at h
    split at h
    · next hu => exact .priv hu (by simp [Instr.mnemonic]) h
    · next hu =>
      split at h
      · simp at h
      · next hd =>
        split at h
        · simp at h
        · next f hf =>
          refine .returns _ _ f ?_ rfl hf ((next_eq_iff _ _).1 h)
          cases hm : s.mode <;> simp_all [Mode.isUser]
  case mov =>
    simp only [exec, execMov] at h
    split at h
    · split at h
      · next ha => exact .movesReg _ _ _ _ _ ha ((next_eq_iff _ _).1 h)
      · simp at h
    · simp at h
  all_goals exact absurd h (by simp [exec, execBccLong, execBsr, execJsr, execJmpr, execJsrr, execRts, execLd, execLdar,
    execSt, execStcr, execNot, execNeg, execCom, execAndc, execOrc, execShli, execShri, execShl, execShr, execAsri,
    execAsr, execExs, execExl, execMtspr, execDbg])

end Sys2Proof.Machine
end

