-- ==== Sys2Proof/Laws/PerInstr.lean ====
section
/-! SUPPORT. Laws/PerInstr.lean: statements for all instructions, one lemma for each. -/

namespace Sys2Proof

/-- The words of an instruction are as many as its length says, one to three (R110). -/
def Laws.EncodeLength.Statement (i : Instr) : Prop :=
  (encode i).length = i.words ∧ 1 ≤ i.words ∧ i.words ≤ 3

theorem Laws.EncodeLength.brk (vector : VectorNo) :
    Laws.EncodeLength.Statement (.brk vector) := ⟨rfl, Nat.le_of_ble_eq_true rfl, Nat.le_of_ble_eq_true rfl⟩
theorem Laws.EncodeLength.nop (rest : BitVec 27) :
    Laws.EncodeLength.Statement (.nop rest) := ⟨rfl, Nat.le_of_ble_eq_true rfl, Nat.le_of_ble_eq_true rfl⟩
theorem Laws.EncodeLength.bccLong (low : BitVec 11) (cond : BitVec 5) (ra : Reg) :
    Laws.EncodeLength.Statement (.bccLong low cond ra) := ⟨rfl, Nat.le_of_ble_eq_true rfl, Nat.le_of_ble_eq_true rfl⟩
theorem Laws.EncodeLength.bra (imm : BitVec 17) (ra : Reg) :
    Laws.EncodeLength.Statement (.bra imm ra) := ⟨rfl, Nat.le_of_ble_eq_true rfl, Nat.le_of_ble_eq_true rfl⟩
theorem Laws.EncodeLength.bsr (imm : BitVec 17) (ra : Reg) :
    Laws.EncodeLength.Statement (.bsr imm ra) := ⟨rfl, Nat.le_of_ble_eq_true rfl, Nat.le_of_ble_eq_true rfl⟩
theorem Laws.EncodeLength.bhi (imm : BitVec 17) (ra : Reg) :
    Laws.EncodeLength.Statement (.bhi imm ra) := ⟨rfl, Nat.le_of_ble_eq_true rfl, Nat.le_of_ble_eq_true rfl⟩
theorem Laws.EncodeLength.bls (imm : BitVec 17) (ra : Reg) :
    Laws.EncodeLength.Statement (.bls imm ra) := ⟨rfl, Nat.le_of_ble_eq_true rfl, Nat.le_of_ble_eq_true rfl⟩
theorem Laws.EncodeLength.bhs (imm : BitVec 17) (ra : Reg) :
    Laws.EncodeLength.Statement (.bhs imm ra) := ⟨rfl, Nat.le_of_ble_eq_true rfl, Nat.le_of_ble_eq_true rfl⟩
theorem Laws.EncodeLength.blo (imm : BitVec 17) (ra : Reg) :
    Laws.EncodeLength.Statement (.blo imm ra) := ⟨rfl, Nat.le_of_ble_eq_true rfl, Nat.le_of_ble_eq_true rfl⟩
theorem Laws.EncodeLength.bne (imm : BitVec 17) (ra : Reg) :
    Laws.EncodeLength.Statement (.bne imm ra) := ⟨rfl, Nat.le_of_ble_eq_true rfl, Nat.le_of_ble_eq_true rfl⟩
theorem Laws.EncodeLength.beq (imm : BitVec 17) (ra : Reg) :
    Laws.EncodeLength.Statement (.beq imm ra) := ⟨rfl, Nat.le_of_ble_eq_true rfl, Nat.le_of_ble_eq_true rfl⟩
theorem Laws.EncodeLength.bvc (imm : BitVec 17) (ra : Reg) :
    Laws.EncodeLength.Statement (.bvc imm ra) := ⟨rfl, Nat.le_of_ble_eq_true rfl, Nat.le_of_ble_eq_true rfl⟩
theorem Laws.EncodeLength.bvs (imm : BitVec 17) (ra : Reg) :
    Laws.EncodeLength.Statement (.bvs imm ra) := ⟨rfl, Nat.le_of_ble_eq_true rfl, Nat.le_of_ble_eq_true rfl⟩
theorem Laws.EncodeLength.bpl (imm : BitVec 17) (ra : Reg) :
    Laws.EncodeLength.Statement (.bpl imm ra) := ⟨rfl, Nat.le_of_ble_eq_true rfl, Nat.le_of_ble_eq_true rfl⟩
theorem Laws.EncodeLength.bmi (imm : BitVec 17) (ra : Reg) :
    Laws.EncodeLength.Statement (.bmi imm ra) := ⟨rfl, Nat.le_of_ble_eq_true rfl, Nat.le_of_ble_eq_true rfl⟩
theorem Laws.EncodeLength.bge (imm : BitVec 17) (ra : Reg) :
    Laws.EncodeLength.Statement (.bge imm ra) := ⟨rfl, Nat.le_of_ble_eq_true rfl, Nat.le_of_ble_eq_true rfl⟩
theorem Laws.EncodeLength.blt (imm : BitVec 17) (ra : Reg) :
    Laws.EncodeLength.Statement (.blt imm ra) := ⟨rfl, Nat.le_of_ble_eq_true rfl, Nat.le_of_ble_eq_true rfl⟩
theorem Laws.EncodeLength.bgt (imm : BitVec 17) (ra : Reg) :
    Laws.EncodeLength.Statement (.bgt imm ra) := ⟨rfl, Nat.le_of_ble_eq_true rfl, Nat.le_of_ble_eq_true rfl⟩
theorem Laws.EncodeLength.ble (imm : BitVec 17) (ra : Reg) :
    Laws.EncodeLength.Statement (.ble imm ra) := ⟨rfl, Nat.le_of_ble_eq_true rfl, Nat.le_of_ble_eq_true rfl⟩
theorem Laws.EncodeLength.bev (imm : BitVec 17) (ra : Reg) :
    Laws.EncodeLength.Statement (.bev imm ra) := ⟨rfl, Nat.le_of_ble_eq_true rfl, Nat.le_of_ble_eq_true rfl⟩
theorem Laws.EncodeLength.bod (imm : BitVec 17) (ra : Reg) :
    Laws.EncodeLength.Statement (.bod imm ra) := ⟨rfl, Nat.le_of_ble_eq_true rfl, Nat.le_of_ble_eq_true rfl⟩
theorem Laws.EncodeLength.bpo (imm : BitVec 17) (ra : Reg) :
    Laws.EncodeLength.Statement (.bpo imm ra) := ⟨rfl, Nat.le_of_ble_eq_true rfl, Nat.le_of_ble_eq_true rfl⟩
theorem Laws.EncodeLength.brz (imm : BitVec 17) (ra : Reg) :
    Laws.EncodeLength.Statement (.brz imm ra) := ⟨rfl, Nat.le_of_ble_eq_true rfl, Nat.le_of_ble_eq_true rfl⟩
theorem Laws.EncodeLength.bnz (imm : BitVec 17) (ra : Reg) :
    Laws.EncodeLength.Statement (.bnz imm ra) := ⟨rfl, Nat.le_of_ble_eq_true rfl, Nat.le_of_ble_eq_true rfl⟩
theorem Laws.EncodeLength.brp (imm : BitVec 17) (ra : Reg) :
    Laws.EncodeLength.Statement (.brp imm ra) := ⟨rfl, Nat.le_of_ble_eq_true rfl, Nat.le_of_ble_eq_true rfl⟩
theorem Laws.EncodeLength.brn (imm : BitVec 17) (ra : Reg) :
    Laws.EncodeLength.Statement (.brn imm ra) := ⟨rfl, Nat.le_of_ble_eq_true rfl, Nat.le_of_ble_eq_true rfl⟩
theorem Laws.EncodeLength.bxc (imm : BitVec 17) (ra : Reg) :
    Laws.EncodeLength.Statement (.bxc imm ra) := ⟨rfl, Nat.le_of_ble_eq_true rfl, Nat.le_of_ble_eq_true rfl⟩
theorem Laws.EncodeLength.bxs (imm : BitVec 17) (ra : Reg) :
    Laws.EncodeLength.Statement (.bxs imm ra) := ⟨rfl, Nat.le_of_ble_eq_true rfl, Nat.le_of_ble_eq_true rfl⟩
theorem Laws.EncodeLength.brc (imm : BitVec 17) (ra : Reg) :
    Laws.EncodeLength.Statement (.brc imm ra) := ⟨rfl, Nat.le_of_ble_eq_true rfl, Nat.le_of_ble_eq_true rfl⟩
theorem Laws.EncodeLength.brs (imm : BitVec 17) (ra : Reg) :
    Laws.EncodeLength.Statement (.brs imm ra) := ⟨rfl, Nat.le_of_ble_eq_true rfl, Nat.le_of_ble_eq_true rfl⟩
theorem Laws.EncodeLength.addiL (rt ra : Reg) (x : BitVec 11) (imm : Word) :
    Laws.EncodeLength.Statement (.addiL rt ra x imm) := ⟨rfl, Nat.le_of_ble_eq_true rfl, Nat.le_of_ble_eq_true rfl⟩
theorem Laws.EncodeLength.addi (rt ra : Reg) (imm : BitVec 17) :
    Laws.EncodeLength.Statement (.addi rt ra imm) := ⟨rfl, Nat.le_of_ble_eq_true rfl, Nat.le_of_ble_eq_true rfl⟩
theorem Laws.EncodeLength.cmpiL (ra : Reg) (x : BitVec 11) (imm : Word) :
    Laws.EncodeLength.Statement (.cmpiL ra x imm) := ⟨rfl, Nat.le_of_ble_eq_true rfl, Nat.le_of_ble_eq_true rfl⟩
theorem Laws.EncodeLength.cmpi (ra : Reg) (imm : BitVec 17) :
    Laws.EncodeLength.Statement (.cmpi ra imm) := ⟨rfl, Nat.le_of_ble_eq_true rfl, Nat.le_of_ble_eq_true rfl⟩
theorem Laws.EncodeLength.andiL (rt ra : Reg) (x : BitVec 11) (imm : Word) :
    Laws.EncodeLength.Statement (.andiL rt ra x imm) := ⟨rfl, Nat.le_of_ble_eq_true rfl, Nat.le_of_ble_eq_true rfl⟩
theorem Laws.EncodeLength.andi (rt ra : Reg) (imm : BitVec 17) :
    Laws.EncodeLength.Statement (.andi rt ra imm) := ⟨rfl, Nat.le_of_ble_eq_true rfl, Nat.le_of_ble_eq_true rfl⟩
theorem Laws.EncodeLength.ori (rt ra : Reg) (imm : Imm) :
    Laws.EncodeLength.Statement (.ori rt ra imm) := by
  cases imm <;> exact ⟨rfl, Nat.le_of_ble_eq_true rfl, Nat.le_of_ble_eq_true rfl⟩
theorem Laws.EncodeLength.eori (rt ra : Reg) (imm : Imm) :
    Laws.EncodeLength.Statement (.eori rt ra imm) := by
  cases imm <;> exact ⟨rfl, Nat.le_of_ble_eq_true rfl, Nat.le_of_ble_eq_true rfl⟩
theorem Laws.EncodeLength.jmp (offset : BitVec 27) :
    Laws.EncodeLength.Statement (.jmp offset) := ⟨rfl, Nat.le_of_ble_eq_true rfl, Nat.le_of_ble_eq_true rfl⟩
theorem Laws.EncodeLength.jsr (rest : BitVec 27) :
    Laws.EncodeLength.Statement (.jsr rest) := ⟨rfl, Nat.le_of_ble_eq_true rfl, Nat.le_of_ble_eq_true rfl⟩
theorem Laws.EncodeLength.jmf (offset : BitVec 27) (segment : Word) (ts : BitVec 3) (u : BitVec 2) (limit : BitVec 27) :
    Laws.EncodeLength.Statement (.jmf offset segment ts u limit) := ⟨rfl, Nat.le_of_ble_eq_true rfl, Nat.le_of_ble_eq_true rfl⟩
theorem Laws.EncodeLength.ld (rest : BitVec 27) :
    Laws.EncodeLength.Statement (.ld rest) := ⟨rfl, Nat.le_of_ble_eq_true rfl, Nat.le_of_ble_eq_true rfl⟩
theorem Laws.EncodeLength.ldar (rest : BitVec 27) :
    Laws.EncodeLength.Statement (.ldar rest) := ⟨rfl, Nat.le_of_ble_eq_true rfl, Nat.le_of_ble_eq_true rfl⟩
theorem Laws.EncodeLength.st (rest : BitVec 27) :
    Laws.EncodeLength.Statement (.st rest) := ⟨rfl, Nat.le_of_ble_eq_true rfl, Nat.le_of_ble_eq_true rfl⟩
theorem Laws.EncodeLength.stcr (rest : BitVec 27) :
    Laws.EncodeLength.Statement (.stcr rest) := ⟨rfl, Nat.le_of_ble_eq_true rfl, Nat.le_of_ble_eq_true rfl⟩
theorem Laws.EncodeLength.notr (rest : BitVec 22) :
    Laws.EncodeLength.Statement (.notr rest) := ⟨rfl, Nat.le_of_ble_eq_true rfl, Nat.le_of_ble_eq_true rfl⟩
theorem Laws.EncodeLength.neg (rest : BitVec 22) :
    Laws.EncodeLength.Statement (.neg rest) := ⟨rfl, Nat.le_of_ble_eq_true rfl, Nat.le_of_ble_eq_true rfl⟩
theorem Laws.EncodeLength.com (rest : BitVec 22) :
    Laws.EncodeLength.Statement (.com rest) := ⟨rfl, Nat.le_of_ble_eq_true rfl, Nat.le_of_ble_eq_true rfl⟩
theorem Laws.EncodeLength.mov (ts : BitVec 3) (rt : Reg) (ss : BitVec 3) (ra : Reg) :
    Laws.EncodeLength.Statement (.mov ts rt ss ra) := ⟨rfl, Nat.le_of_ble_eq_true rfl, Nat.le_of_ble_eq_true rfl⟩
theorem Laws.EncodeLength.add (rt rb ra : Reg) :
    Laws.EncodeLength.Statement (.add rt rb ra) := ⟨rfl, Nat.le_of_ble_eq_true rfl, Nat.le_of_ble_eq_true rfl⟩
theorem Laws.EncodeLength.sub (u : BitVec 7) (rt rb ra : Reg) :
    Laws.EncodeLength.Statement (.sub u rt rb ra) := ⟨rfl, Nat.le_of_ble_eq_true rfl, Nat.le_of_ble_eq_true rfl⟩
theorem Laws.EncodeLength.cmp (u : BitVec 7) (ut : BitVec 5) (rb ra : Reg) :
    Laws.EncodeLength.Statement (.cmp u ut rb ra) := ⟨rfl, Nat.le_of_ble_eq_true rfl, Nat.le_of_ble_eq_true rfl⟩
theorem Laws.EncodeLength.andr (rt rb ra : Reg) :
    Laws.EncodeLength.Statement (.andr rt rb ra) := ⟨rfl, Nat.le_of_ble_eq_true rfl, Nat.le_of_ble_eq_true rfl⟩
theorem Laws.EncodeLength.orr (u : BitVec 7) (rt rb ra : Reg) :
    Laws.EncodeLength.Statement (.orr u rt rb ra) := ⟨rfl, Nat.le_of_ble_eq_true rfl, Nat.le_of_ble_eq_true rfl⟩
theorem Laws.EncodeLength.eor (u : BitVec 7) (rt rb ra : Reg) :
    Laws.EncodeLength.Statement (.eor u rt rb ra) := ⟨rfl, Nat.le_of_ble_eq_true rfl, Nat.le_of_ble_eq_true rfl⟩
theorem Laws.EncodeLength.andc (rest : BitVec 22) :
    Laws.EncodeLength.Statement (.andc rest) := ⟨rfl, Nat.le_of_ble_eq_true rfl, Nat.le_of_ble_eq_true rfl⟩
theorem Laws.EncodeLength.nand (u : BitVec 7) (rt rb ra : Reg) :
    Laws.EncodeLength.Statement (.nand u rt rb ra) := ⟨rfl, Nat.le_of_ble_eq_true rfl, Nat.le_of_ble_eq_true rfl⟩
theorem Laws.EncodeLength.nor (u : BitVec 7) (rt rb ra : Reg) :
    Laws.EncodeLength.Statement (.nor u rt rb ra) := ⟨rfl, Nat.le_of_ble_eq_true rfl, Nat.le_of_ble_eq_true rfl⟩
theorem Laws.EncodeLength.enor (u : BitVec 7) (rt rb ra : Reg) :
    Laws.EncodeLength.Statement (.enor u rt rb ra) := ⟨rfl, Nat.le_of_ble_eq_true rfl, Nat.le_of_ble_eq_true rfl⟩
theorem Laws.EncodeLength.orc (rest : BitVec 22) :
    Laws.EncodeLength.Statement (.orc rest) := ⟨rfl, Nat.le_of_ble_eq_true rfl, Nat.le_of_ble_eq_true rfl⟩
theorem Laws.EncodeLength.jmpr (rest : BitVec 22) :
    Laws.EncodeLength.Statement (.jmpr rest) := ⟨rfl, Nat.le_of_ble_eq_true rfl, Nat.le_of_ble_eq_true rfl⟩
theorem Laws.EncodeLength.jsrr (rest : BitVec 22) :
    Laws.EncodeLength.Statement (.jsrr rest) := ⟨rfl, Nat.le_of_ble_eq_true rfl, Nat.le_of_ble_eq_true rfl⟩
theorem Laws.EncodeLength.rts (rest : BitVec 22) :
    Laws.EncodeLength.Statement (.rts rest) := ⟨rfl, Nat.le_of_ble_eq_true rfl, Nat.le_of_ble_eq_true rfl⟩
theorem Laws.EncodeLength.rti (rt ra : Reg) :
    Laws.EncodeLength.Statement (.rti rt ra) := ⟨rfl, Nat.le_of_ble_eq_true rfl, Nat.le_of_ble_eq_true rfl⟩
theorem Laws.EncodeLength.shli (rest : BitVec 22) :
    Laws.EncodeLength.Statement (.shli rest) := ⟨rfl, Nat.le_of_ble_eq_true rfl, Nat.le_of_ble_eq_true rfl⟩
theorem Laws.EncodeLength.shri (rest : BitVec 22) :
    Laws.EncodeLength.Statement (.shri rest) := ⟨rfl, Nat.le_of_ble_eq_true rfl, Nat.le_of_ble_eq_true rfl⟩
theorem Laws.EncodeLength.shl (rest : BitVec 22) :
    Laws.EncodeLength.Statement (.shl rest) := ⟨rfl, Nat.le_of_ble_eq_true rfl, Nat.le_of_ble_eq_true rfl⟩
theorem Laws.EncodeLength.shr (rest : BitVec 22) :
    Laws.EncodeLength.Statement (.shr rest) := ⟨rfl, Nat.le_of_ble_eq_true rfl, Nat.le_of_ble_eq_true rfl⟩
theorem Laws.EncodeLength.asri (rest : BitVec 22) :
    Laws.EncodeLength.Statement (.asri rest) := ⟨rfl, Nat.le_of_ble_eq_true rfl, Nat.le_of_ble_eq_true rfl⟩
theorem Laws.EncodeLength.asr (rest : BitVec 22) :
    Laws.EncodeLength.Statement (.asr rest) := ⟨rfl, Nat.le_of_ble_eq_true rfl, Nat.le_of_ble_eq_true rfl⟩
theorem Laws.EncodeLength.mtspr (rest : BitVec 22) :
    Laws.EncodeLength.Statement (.mtspr rest) := ⟨rfl, Nat.le_of_ble_eq_true rfl, Nat.le_of_ble_eq_true rfl⟩
theorem Laws.EncodeLength.mfspr (spr : BitVec 7) (rt : Reg) :
    Laws.EncodeLength.Statement (.mfspr spr rt) := ⟨rfl, Nat.le_of_ble_eq_true rfl, Nat.le_of_ble_eq_true rfl⟩
theorem Laws.EncodeLength.dbg (rest : BitVec 22) :
    Laws.EncodeLength.Statement (.dbg rest) := ⟨rfl, Nat.le_of_ble_eq_true rfl, Nat.le_of_ble_eq_true rfl⟩
theorem Laws.EncodeLength.seg (rt : Reg) (imm3 : BitVec 3) (ra : Reg) :
    Laws.EncodeLength.Statement (.seg rt imm3 ra) := ⟨rfl, Nat.le_of_ble_eq_true rfl, Nat.le_of_ble_eq_true rfl⟩
theorem Laws.EncodeLength.exs (rest : BitVec 22) :
    Laws.EncodeLength.Statement (.exs rest) := ⟨rfl, Nat.le_of_ble_eq_true rfl, Nat.le_of_ble_eq_true rfl⟩
theorem Laws.EncodeLength.exl (rest : BitVec 22) :
    Laws.EncodeLength.Statement (.exl rest) := ⟨rfl, Nat.le_of_ble_eq_true rfl, Nat.le_of_ble_eq_true rfl⟩

end Sys2Proof
end

