-- ==== Sys2Proof/Tests/Slice0.lean ====
section
/-! SUPPORT. Tests/Slice0.lean: named tests. Expected values come from 95_test_vectors.md, from the worked examples of the
rules, or from the rules by hand. Below them a witness for each statement that has hypotheses. -/

namespace Sys2Proof.Tests

open Machine

/-! ## Helpers -/

/-- The answer is a next state that satisfies `p`. -/
def holds (r : Result) (p : State → Bool) : Bool :=
  match r with
  | .next t => p t
  | .fault _ => false
  | .refused _ => false

theorem holds_next {r : Result} {p : State → Bool} (h : holds r p = true) : ∃ t, r = .next t ∧ p t = true := by
  cases r with
  | next t => exact ⟨t, rfl, h⟩
  | fault _ => cases h
  | refused _ => cases h

/-- System mode after the reset BRK, interrupts masked, at `pc`: the other values are those of `State.reset`. -/
def at_ (pc : Word) : State := State.reset.endReset.setPc pc

/-- The same with registers of a set written. -/
def withRegs (m : Mode) : List (Reg × Word) → State → State
  | [], s => s
  | (r, v) :: l, s => withRegs m l (s.setReg m r v)

/-- System mode at 0x10 with r1 and r2. -/
def sys (r1 r2 : Word) : State := withRegs .system [(1, r1), (2, r2)] (at_ 0x10)

/-- One instruction: its target register and pc afterwards. -/
def wrote (i : Instr) (s : State) (r : Reg) (v pc : Word) : Bool :=
  holds (exec i s) fun t => t.reg s.mode r == v && t.pc == pc && t.mem == s.mem

/-- The flags cf, zf, nf, vf that an instruction leaves (the odd flag is open), and pc. -/
def flagged (i : Instr) (s : State) (cf zf nf vf : Bool) (pc : Word) : Bool :=
  holds (exec i s) fun t =>
    let f := (t.bank s.mode).flags
    f.cf == cf && f.zf == zf && f.nf == nf && f.vf == vf && t.pc == pc

/-- Where an instruction goes. -/
def goesTo (i : Instr) (s : State) (pc : Word) : Bool := holds (exec i s) fun t => t.pc == pc

/-! ## Ill-formed terms are refused (30_encoding.md R127, 42_control_transfer.md R200) -/

theorem test_illformed_short_operate :
    (Instr.addi 1 2 0x10000).wellFormed = false ∧ (Instr.cmpi 1 0x107FF).wellFormed = false ∧
    (Instr.andi 1 2 0x10001).wellFormed = false ∧ (Instr.ori 1 2 (.short 0x10000)).wellFormed = false ∧
    (Instr.eori 1 2 (.short 0x107FF)).wellFormed = false ∧
    (Instr.addi 1 2 0x10800).wellFormed = true ∧ (Instr.addi 1 2 0x0FFFF).wellFormed = true := by decide

theorem test_illformed_branch :
    (Instr.bra 0x10000 0).wellFormed = false ∧ (Instr.bsr 0x107FF 0).wellFormed = false ∧
    (Instr.bpo 0x10123 3).wellFormed = false ∧ (Instr.brs 0x10000 0).wellFormed = false ∧
    (Instr.brs 0x10800 0).wellFormed = true ∧ (Instr.bccLong 0 0 0).wellFormed = true := by decide

/-! ## Decoding: every constructor, by a word written out from its format -/

/-- 42_control_transfer.md R202 to R228: the +4 word of each condition, 0x00020003 + Cond * 0x400, some with Ra = r5. -/
theorem test_decode_branches :
    decode 0x00020003 0 0 = .ok (.bra 4 0) ∧ decode 0x00020403 0 0 = .ok (.bsr 4 0) ∧
    decode 0x00020803 0 0 = .ok (.bhi 4 0) ∧ decode 0x00020C03 0 0 = .ok (.bls 4 0) ∧
    decode 0x00021003 0 0 = .ok (.bhs 4 0) ∧ decode 0x00021403 0 0 = .ok (.blo 4 0) ∧
    decode 0x00021803 0 0 = .ok (.bne 4 0) ∧ decode 0x00021C03 0 0 = .ok (.beq 4 0) ∧
    decode 0x00022003 0 0 = .ok (.bvc 4 0) ∧ decode 0x00022403 0 0 = .ok (.bvs 4 0) ∧
    decode 0x00022803 0 0 = .ok (.bpl 4 0) ∧ decode 0x00022C03 0 0 = .ok (.bmi 4 0) ∧
    decode 0x00023003 0 0 = .ok (.bge 4 0) ∧ decode 0x00023403 0 0 = .ok (.blt 4 0) ∧
    decode 0x00023803 0 0 = .ok (.bgt 4 0) ∧ decode 0x00023C03 0 0 = .ok (.ble 4 0) ∧
    decode 0x00024003 0 0 = .ok (.bev 4 0) ∧ decode 0x00024403 0 0 = .ok (.bod 4 0) ∧
    decode 0x00024803 0 0 = .ok (.bpo 4 0) ∧ decode 0x000260A3 0 0 = .ok (.brz 4 5) ∧
    decode 0x000264A3 0 0 = .ok (.bnz 4 5) ∧ decode 0x000268A3 0 0 = .ok (.brp 4 5) ∧
    decode 0x00026CA3 0 0 = .ok (.brn 4 5) ∧ decode 0x00027003 0 0 = .ok (.bxc 4 0) ∧
    decode 0x00027403 0 0 = .ok (.bxs 4 0) ∧ decode 0x00027803 0 0 = .ok (.brc 4 0) ∧
    decode 0x00027C03 0 0 = .ok (.brs 4 0) ∧ decode 0x83FF8003 0 0 = .ok (.bccLong 0x7FF 0 0) ∧
    decode 0x80000003 0 0 = .ok (.bccLong 0 0 0) ∧ decode 0x84006C63 0 0 = .ok (.brn 0x10800 3) := by
  and_intros <;> rfl

/-- 95_test_vectors.md section 2.1, 30_encoding.md R113, R114, R116. -/
theorem test_decode_immediates :
    decode 0x00028404 0 0 = .ok (.addi 1 0 5) ∧ decode 0x84000824 0 0 = .ok (.addi 2 1 0x10800) ∧
    decode 0x83FF8824 7 0 = .ok (.addiL 2 1 0x7FF 7) ∧ decode 0x00050026 0 0 = .ok (.cmpi 1 10) ∧
    decode 0x80000026 0x80000000 0 = .ok (.cmpiL 1 0 0x80000000) ∧
    decode 0x007F8828 0 0 = .ok (.andi 2 1 0xFF) ∧ decode 0x80000428 0x304 0 = .ok (.andiL 1 1 0 0x304) ∧
    decode 0x007F8829 0 0 = .ok (.ori 2 1 (.short 0xFF)) ∧
    decode 0x80000829 0x12345678 0 = .ok (.ori 2 1 (.long 0 0x12345678)) ∧
    decode 0x007F882A 0 0 = .ok (.eori 2 1 (.short 0xFF)) ∧ decode 0x00000001 0 0 = .ok (.nop 0) ∧
    decode 0x000000A0 0 0 = .ok (.brk 5) ∧ decode 0x00003FE0 0 0 = .ok (.brk 511) := by
  and_intros <;> rfl

/-- 95_test_vectors.md sections 2.4 to 2.6, 30_encoding.md R112, R117 to R122. -/
theorem test_decode_group_and_jumps :
    decode 0x20018822 0 0 = .ok (.add 3 2 1) ∧ decode 0x40018822 0 0 = .ok (.andr 3 2 1) ∧
    decode 0x28018822 0 0 = .ok (.sub 0 3 2 1) ∧ decode 0x30000822 0 0 = .ok (.cmp 0 0 2 1) ∧
    decode 0x48018822 0 0 = .ok (.orr 0 3 2 1) ∧ decode 0x50018822 0 0 = .ok (.eor 0 3 2 1) ∧
    decode 0x60018822 0 0 = .ok (.nand 0 3 2 1) ∧ decode 0x68018822 0 0 = .ok (.nor 0 3 2 1) ∧
    decode 0x70018822 0 0 = .ok (.enor 0 3 2 1) ∧ decode 0x28118822 0 0 = .ok (.sub 1 3 2 1) ∧
    decode 0xE8011022 0 0 = .ok (.seg 2 4 1) ∧ decode 0x180288C2 0 0 = .ok (.mov 0 5 2 6) ∧
    decode 0x18729CC2 0 0 = .ok (.mov 7 5 7 6) ∧ decode 0xD9A10002 0 0 = .ok (.mfspr 0x1A 2) ∧
    decode 0x980F8022 0 0 = .ok (.rti 31 1) ∧ decode 0x00002010 0 0 = .ok (.jmp 0x100) ∧
    decode 0x00000814 0x1000 0xE0000FFF = .ok (.jmf 0x40 0x1000 7 0 0xFFF) ∧
    decode 0x00000014 0x20 0xE80000FF = .ok (.jmf 0 0x20 7 1 0xFF) := by
  and_intros <;> rfl

/-- 30_encoding.md R123, R124: a word for each instruction known by name and number only. -/
theorem test_decode_name_only :
    decode 0x00000022 0 0 = .ok (.notr 1) ∧ decode 0x08000002 0 0 = .ok (.neg 0) ∧
    decode 0x10000002 0 0 = .ok (.com 0) ∧ decode 0x58000002 0 0 = .ok (.andc 0) ∧
    decode 0x78000002 0 0 = .ok (.orc 0) ∧ decode 0x80000002 0 0 = .ok (.jmpr 0) ∧
    decode 0x88000002 0 0 = .ok (.jsrr 0) ∧ decode 0x90000002 0 0 = .ok (.rts 0) ∧
    decode 0xA0000002 0 0 = .ok (.shli 0) ∧ decode 0xA8000002 0 0 = .ok (.shri 0) ∧
    decode 0xB0000002 0 0 = .ok (.shl 0) ∧ decode 0xB8000002 0 0 = .ok (.shr 0) ∧
    decode 0xC0000002 0 0 = .ok (.asri 0) ∧ decode 0xC8308002 0 0 = .ok (.asr 0x18400) ∧
    decode 0xD0000002 0 0 = .ok (.mtspr 0) ∧ decode 0xE0000002 0 0 = .ok (.dbg 0) ∧
    decode 0xF0000002 0 0 = .ok (.exs 0) ∧ decode 0xF8000022 0 0 = .ok (.exl 1) ∧
    decode 0x00000011 0 0 = .ok (.jsr 0) ∧ decode 0x0000001C 0 0 = .ok (.ld 0) ∧
    decode 0x0000001D 0 0 = .ok (.ldar 0) ∧ decode 0x0000001E 0 0 = .ok (.st 0) ∧
    decode 0x0000003F 0 0 = .ok (.stcr 1) := by
  and_intros <;> rfl

/-- 95_test_vectors.md: nonzero unused fields (R130) and blank cells (R129). -/
theorem test_decode_refusals :
    decode 0x000040A0 0 0 = .error .nonzeroUnusedField ∧ decode 0x00000426 0 0 = .error .nonzeroUnusedField ∧
    decode 0x20118822 0 0 = .error .nonzeroUnusedField ∧ decode 0x98008422 0 0 = .error .nonzeroUnusedField ∧
    decode 0x00000005 0 0 = .error .unassignedEncoding ∧ decode 0x38000002 0 0 = .error .unassignedEncoding ∧
    decode 0x0000CC03 0 0 = .error .unassignedEncoding := by
  and_intros <;> rfl

/-- The table numbering: the second word is bits 63..32, the third bits 95..64, and bits at `nbits` and above are zero. -/
theorem test_table_words :
    decodeTableWord 64 0x1234567880000824 = some (.addiL 2 1 0 0x12345678) ∧
    decodeTableWord 96 0xE0000FFF0000100000000814 = some (.jmf 0x40 0x1000 7 0 0xFFF) ∧
    decodeTableWord 32 0x1234567880000824 = some (.addiL 2 1 0 0) := by
  and_intros <;> rfl

/-- The encoder writes the words of the rules' examples (43_system.md R240 to R245, 42_control_transfer.md R232). -/
theorem test_encode :
    encode (.jmf 0x40 0x1000 7 0 0xFFF) = [0x00000814, 0x00001000, 0xE0000FFF] ∧ encode (.brk 5) = [0x000000A0] ∧
    encode (.mov 2 1 7 1) = [0x18209C22] ∧ encode (.mfspr 3 1) = [0xD8308002] ∧ encode (.rti 1 1) = [0x98008022] ∧
    encode (.addiL 2 1 0x7FF 7) = [0x83FF8824, 7] ∧ encode (.bnz 0x1FFFD 1) = [0xFFFEE423] := by
  decide

/-! ## Immediate operate (95_test_vectors.md section 2.1) -/

theorem test_addi_wraps : wrote (.addi 1 1 0x1FFFF) (sys 0 0) 1 0xFFFFFFFF 0x11 = true := by decide
theorem test_addi_discards : wrote (.addi 0 1 5) (sys 9 0) 0 0 0x11 = true := by decide
theorem test_addiL : wrote (.addiL 2 1 0x7FF 0x12345678) (sys 1 0) 2 0x12345679 0x12 = true := by decide
theorem test_andi_extends : wrote (.andi 2 1 0x1FFF0) (sys 0x12345678 0) 2 0x12345670 0x11 = true := by decide
theorem test_andiL : wrote (.andiL 1 1 0 0x304) (sys 0xFFFFFFFF 0) 1 0x304 0x12 = true := by decide
theorem test_cmpi_less : flagged (.cmpi 1 10) (sys 5 0) true false true false 0x11 = true := by decide
theorem test_cmpi_overflow : flagged (.cmpi 1 0x1FFFF) (sys 0x7FFFFFFF 0) true false true true 0x11 = true := by
  decide
theorem test_cmpiL : flagged (.cmpiL 1 0 0x80000000) (sys 0 0) true false true true 0x12 = true := by decide
theorem test_ori_long : wrote (.ori 2 1 (.long 0 0xF0)) (sys 0x0F 0) 2 0xFF 0x12 = true := by decide
theorem test_eori_short : wrote (.eori 2 1 (.short 0x1FFFF)) (sys 0x0F 0) 2 0xFFFFFFF0 0x11 = true := by decide
theorem test_nop : goesTo (.nop 0) (sys 0 0) 0x11 = true ∧ exec (.nop 1) (sys 0 0) = .refused .mapOnlyInstruction :=
  ⟨by decide, rfl⟩

/-! ## Register operate (95_test_vectors.md section 2.4; the inferred ones by hand) -/

theorem test_add_wraps : wrote (.add 3 2 1) (sys 0xFFFFFFFF 1) 3 0 0x11 = true := by decide
theorem test_add_same : wrote (.add 1 1 1) (sys 21 0) 1 42 0x11 = true := by decide
theorem test_add_stack_pointer : wrote (.add 31 1 31) (sys 0xFFFFFFFC 0) 31 0xFC 0x11 = true := by decide
theorem test_and : wrote (.andr 3 2 1) (sys 0xFF00FF00 0x0FF00FF0) 3 0x0F000F00 0x11 = true := by decide
theorem test_seg_replaces : wrote (.seg 2 1 1) (sys 0xFFFFFFF0 0) 2 0x3FFFFFF0 0x11 = true := by decide
theorem test_seg_reserved : wrote (.seg 2 5 1) (sys 4 0) 2 0xA0000004 0x11 = true := by decide
theorem test_sub : wrote (.sub 0 3 2 1) (sys 5 7) 3 0xFFFFFFFE 0x11 = true := by decide
theorem test_cmp : flagged (.cmp 0 0 2 1) (sys 0x80000000 1) false false false true 0x11 = true := by decide
theorem test_or : wrote (.orr 0 3 2 1) (sys 0xF0 0x3C) 3 0xFC 0x11 = true := by decide
theorem test_eor : wrote (.eor 0 3 2 1) (sys 0xF0 0x3C) 3 0xCC 0x11 = true := by decide
theorem test_nand : wrote (.nand 0 3 2 1) (sys 0xF0 0x3C) 3 0xFFFFFFCF 0x11 = true := by decide
theorem test_nor : wrote (.nor 0 3 2 1) (sys 0xF0 0x3C) 3 0xFFFFFF03 0x11 = true := by decide
theorem test_enor : wrote (.enor 0 3 2 1) (sys 0xF0 0x3C) 3 0xFFFFFF33 0x11 = true := by decide

/-! ## Branches -/

/-- BHI BLS BHS BLO BNE BEQ BVC BVS BPL BMI BGE BLT BGT BLE BPO, +4 at 0x20: which are taken after the compare of a with
b, and that every other goes to 0x21. -/
def taken (a b : Word) : List Bool :=
  let s := ((at_ 0x20).setFlags .system (compareFlags a b false))
  [Instr.bhi, Instr.bls, Instr.bhs, Instr.blo, Instr.bne, Instr.beq, Instr.bvc, Instr.bvs, Instr.bpl, Instr.bmi,
    Instr.bge, Instr.blt, Instr.bgt, Instr.ble, Instr.bpo].map fun b => goesTo (b 4 0) s 0x25 && !goesTo (b 4 0) s 0x21

/-- 95_test_vectors.md section 2.2, rows 1 to 5. -/
theorem test_branches_after_compare :
    taken 5 5 = [false, true, true, false, false, true, true, false, true, false, true, false, false, true, false] ∧
    taken 5 10 = [false, true, false, true, true, false, true, false, false, true, false, true, false, true, false] ∧
    taken 10 5 = [true, false, true, false, true, false, true, false, true, false, true, false, true, false, true] ∧
    taken 0xFFFFFFFF 10 =
      [true, false, true, false, true, false, true, false, false, true, false, true, false, true, false] ∧
    taken 10 0xFFFFFFFF =
      [false, true, false, true, true, false, true, false, true, false, true, false, true, false, true] := by
  decide

/-- 95_test_vectors.md section 2.2, rows 6, 7 and 10. -/
theorem test_branches_after_overflow :
    taken 0x80000000 1 =
      [true, false, true, false, true, false, false, true, true, false, false, true, false, true, true] ∧
    taken 0x7FFFFFFF 0xFFFFFFFF =
      [false, true, false, true, true, false, false, true, false, true, true, false, true, false, false] ∧
    taken 0 0x80000000 =
      [false, true, false, true, true, false, false, true, false, true, true, false, true, false, false] := by
  decide

/-- 95_test_vectors.md section 2.3. -/
theorem test_bra : goesTo (.bra 0x1FFFF 0) (at_ 0x20) 0x20 = true ∧ goesTo (.bra 0xFFFF 0) (at_ 0x20) 0x10020 = true := by
  decide

/-- 95_test_vectors.md section 2.3: r0 reads zero, a taken backward branch, bit 31. -/
theorem test_register_branches :
    goesTo (.brz 5 0) (at_ 0x20) 0x26 = true ∧
    goesTo (.bnz 0x1FFFE 2) (withRegs .system [(2, 7)] (at_ 0x20)) 0x1F = true ∧
    goesTo (.brp 4 5) (withRegs .system [(5, 0x80000000)] (at_ 0x20)) 0x21 = true ∧
    goesTo (.brn 0x10800 3) (withRegs .system [(3, 0x80000000)] (at_ 0x20)) 0xFFFF0821 = true := by decide

/-- 42_control_transfer.md R218, R219, R227, R228: the odd flag and RF. -/
theorem test_odd_and_reservation :
    goesTo (.bev 4 0) (at_ 0x20) 0x25 = true ∧ goesTo (.bod 4 0) (at_ 0x20) 0x21 = true ∧
    goesTo (.brc 4 0) (at_ 0x20) 0x25 = true ∧ goesTo (.brs 4 0) ((at_ 0x20).setRf true) 0x25 = true := by
  decide

/-- 42_control_transfer.md R225, R226: whatever the signal, BXC and BXS go different ways. -/
theorem test_external_signal :
    holds (exec (.bxc 4 0) (at_ 0x20)) (fun t => holds (exec (.bxs 4 0) (at_ 0x20)) fun u => t.pc != u.pc) = true := by
  simp only [exec, execBxc, execBxs, branch_eq, holds]
  cases h : Config.externalSignal (at_ 0x20).draws <;> simp [at_] <;> decide

theorem test_branch_refusals (s : State) :
    exec (.bsr 4 0) s = .refused .bsrLinkUnspecified ∧ exec (.bccLong 0 0 0) s = .refused .bccLongImmediatePattern :=
  ⟨rfl, rfl⟩

/-! ## Jumps (95_test_vectors.md section 2.5) -/

theorem test_jmp : goesTo (.jmp 0x7FFFFFF) (at_ 0x10) 0x07FFFFFF = true := by decide

theorem test_jmf :
    holds (exec (.jmf 0x7FFFFFF 0xFFFFFFFF 2 0 0x7FFFFFF) (at_ 0x10)) (fun t =>
      t.pc == 0x07FFFFFF && (t.bank .system).cs == 0xFFFFFFFF && (t.bank .system).csl == 0x07FFFFFF &&
        lin (t.bank .system).cs t.pc == 0x00007FFEFFF#44) = true := by decide

theorem test_jmf_refused :
    exec (.jmf 0 0x20 0 0 0xFF) (at_ 0x10) = .refused .jmfTsUnspecified ∧
    exec (.jmf 0 0x20 7 1 0xFF) (at_ 0x10) = .refused .nonzeroUnusedField := ⟨rfl, rfl⟩

/-! ## Traps (95_test_vectors.md sections 2.6 and 2.8) -/

/-- The state of the BRK rows: a mode at `pc` with cs, csl and flags, and ssp. -/
def caller (m : Mode) (pc cs csl ssp : Word) (f : Flags) (im rf : Bool) : State :=
  ((((((at_ pc).setMode m).setCode m cs csl).setFlags m f).setSp .system ssp).setIm im).setRf rf

/-- The defined bits of the MSW: 9..6 and 4..0. -/
def definedBits (w : Word) : Word := w &&& 0x3DF

theorem test_brk_from_user :
    holds (exec (.brk 5) (caller .user1 0x30 0x10 0xFF 0x100 ⟨false, false, false, false, false⟩ true false)) (fun t =>
      t.readWord 0xFF == 0xFF && t.readWord 0xFE == 0x10 && t.readWord 0xFD == 0x31 &&
        t.mode == .system && t.reg .system 31 == 0xFC && (t.bank .system).csl == 0x7FF &&
        (t.bank .system).cs == 0xFFFFFFFF && t.pc == 0x14) = true := by decide

theorem test_brk_nested :
    holds (exec (.brk 9) (caller .system 7 0x20 0xFF 0xFC ⟨true, true, false, false, true⟩ false true)) (fun t =>
      t.readWord 0xFB == 0xFF && t.readWord 0xFA == 0x20 && t.readWord 0xF9 == 8 && t.reg .system 31 == 0xF8 &&
        t.pc == 0x24 && t.rf) = true := by decide

/-- The pushed image of that BRK, whatever the unused bits: 0x0000021B. -/
theorem test_brk_image (unused : Word) :
    definedBits (mswWord 2 ⟨true, true, false, false, true⟩ true false unused) = 0x21B := by
  unfold definedBits mswWord
  apply BitVec.eq_of_getLsbD_eq
  intro i hi
  rw [BitVec.getLsbD_and]
  simp only [BitVec.getLsbD_append]
  interval_cases i <;> simp

theorem test_brk_stuck :
    exec (.brk 9) (caller .system 7 0x20 0xFF 2 ⟨true, true, false, false, true⟩ false true) =
      .fault .faultInTrapSequence ∧
    exec (.brk 9) (caller .system 7 0x20 0xFF 0x102 ⟨true, true, false, false, true⟩ false true) =
      .fault .faultInTrapSequence := ⟨rfl, rfl⟩

theorem test_priv_entry :
    holds (exec (.mfspr 2 1) (caller .user2 3 0x40 0xF 0x80 ⟨true, false, true, false, false⟩ false false)) (fun t =>
      t.faultPc == 3 && t.faultCs == 0x40 && t.readWord 0x7F == 0xF && t.readWord 0x7E == 0x40 &&
        t.readWord 0x7D == 3 && t.mode == .system && t.reg .system 31 == 0x7C && t.reg .user2 1 == 0) = true := by
  decide

theorem test_jmf_priv :
    holds (exec (.jmf 0x40 0x1000 0 3 0xFFF) (caller .user1 9 0x40 0xF 0x80 ⟨true, false, true, false, false⟩ false false))
      (fun t => t.faultPc == 9 && (t.bank .user1).cs == 0x40 && t.mode == .system) = true := by decide

/-- A return frame at 0xFC. -/
def framed (msw : Word) : State :=
  ((((((at_ 0x40).setSp .system 0xFC).writeWord 0xFC msw).writeWord 0xFD 0x31).writeWord 0xFE 0x10).writeWord 0xFF
    0xFF).setReg .system 1 42

theorem test_rti_to_user :
    holds (exec (.rti 1 1) (framed 4)) (fun t =>
      t.mode == .user1 && t.im && !t.rf && t.pc == 0x31 && (t.bank .user1).cs == 0x10 && (t.bank .user1).csl == 0xFF &&
        t.reg .system 31 == 0x100 && t.reg .user1 1 == 42) = true := by decide

/-- The transfer to r31 is the last write. -/
theorem test_rti_transfer_last :
    holds (exec (.rti 31 1) (framed 0x21B)) (fun t => t.mode == .system && t.reg .system 31 == 42 && t.rf &&
      (t.bank .system).flags == ⟨true, true, false, false, true⟩) = true := by decide

/-! ## MOV and MFSPR (95_test_vectors.md section 2.6) -/

theorem test_mov_to_system :
    holds (exec (.mov 2 1 7 1) (((sys 0 0).setMode .user1).setReg .user1 1 9)) (fun t =>
      t.reg .system 1 == 9 && t.pc == 0x11) = true := by decide

theorem test_mov_refused :
    exec (.mov 0 5 2 6) ((sys 0 0).setMode .user1) = .refused .movPrivilegeUnspecified ∧
    exec (.mov 1 1 0 1) ((sys 0 0).setMode .user1) = .refused .movPrivilegeUnspecified ∧
    exec (.mov 4 1 7 1) (sys 0 0) = .refused .reservedSetCode := ⟨rfl, rfl, rfl⟩

theorem test_mfspr :
    wrote (.mfspr 2 1) (sys 0 0) 1 0xFFFFFFFF 0x11 = true ∧ wrote (.mfspr 0x0E 1) (sys 0 0) 1 0xFFFFFFFF 0x11 = true ∧
    wrote (.mfspr 0x16 1) (sys 0 0) 1 0x100 0x11 = true ∧ wrote (.mfspr 0x1A 2) (sys 0 0) 2 0x100 0x11 = true := by
  decide

theorem test_mfspr_unlisted :
    exec (.mfspr 0 1) (sys 0 0) = .refused .unlistedSpr ∧ exec (.mfspr 6 1) (sys 0 0) = .refused .unlistedSpr ∧
    exec (.mfspr 0x7F 1) (sys 0 0) = .refused .unlistedSpr := ⟨rfl, rfl, rfl⟩

/-! ## Addresses and fetch bounds (95_test_vectors.md sections 2.7 and 2.8) -/

theorem test_lin : lin 0xFFFFFFFF 0 = 0xFFFFFFFF000 ∧ lin 0x1000 0x40 = 0x1000040 ∧ lin 0xFFFFFFFF 0x1000 = 0 := by decide

theorem test_stack_margin :
    accessAddr 31 4 (at_ 0) = .address 4 ∧ accessAddr 30 3 (at_ 0) = .raised (.stackFault 3 0) ∧
    accessAddr 31 0x100 (at_ 0) = .address 0x100 ∧ accessAddr 31 0x101 (at_ 0) = .raised (.stackFault 0x101 0) ∧
    trapAddr 0 (at_ 0) = some 0 := by decide

/-- The base register plus the offset modulo 2^32 is the address, and a failing check is an exception that records it. -/
theorem test_access_memory :
    holds (accessMemory 1 0xFFFFFFFE (fun a => .next (at_ (a.setWidth 32))) (sys 9 0)) (fun t => t.pc == 7) = true ∧
    holds (accessMemory 31 0xFFFFFF03 (fun _ => .next (at_ 0)) (at_ 0x40)) (fun t =>
      t.faultAddr == 3 && t.faultPc == 0x40 && t.readWord 0xFD == 0x40) = true := by decide

/-- A frame whose words lie in two segments. -/
theorem test_brk_over_segments :
    holds (exec (.brk 5) { (at_ 0x30) with banks := ((at_ 0).banks.set .system
      { (at_ 0).bank .system with sp := 0x20000002, su := 0xFFFFFFFF, es := 0x20 }) }) (fun t =>
      t.readWord 0x1FFFFFFF == 0x31 && t.readWord 0x20000 == 0 && t.reg .system 31 == 0x1FFFFFFE) = true := by decide

/-- JMP past the code limit completes, and the next step takes the bounds exception. -/
theorem test_fetch_bounds :
    holds (step (caller .system 4 0x10 3 0x100 ⟨false, false, false, false, false⟩ true false)) (fun t =>
      t.faultPc == 4 && t.faultCs == 0x10 && t.readWord 0xFF == 3 && t.readWord 0xFE == 0x10 && t.readWord 0xFD == 4 &&
        t.reg .system 31 == 0xFC) = true := by decide

/-! ## Reset (70_reset_and_hazards.md R340, R341) and placing an instruction -/

theorem test_reset_step :
    holds (step State.reset) (fun t => t.reg .system 31 == 0xFC && (t.bank .system).csl == 2047 &&
      (t.bank .system).cs == 0xFFFFFFFF && t.mode == .system && t.im && !t.resetPending) = true := by decide

theorem test_placed_runs :
    holds (step (State.reset.withFetchWord 64 0x1234567880000804)) (fun t =>
      t.reg .system 2 == 0x12345678 && t.pc == 2) = true := by decide

/-! ## Witnesses: for each statement with hypotheses, values that meet them together -/

/-- One step on the one-word instruction `w` placed at pc. -/
def run (s : State) (w : Nat) : Result := step (s.withFetchWord 32 w)

/-- Every data limit of the system set at 0xFF. -/
def limited : State :=
  (at_ 0).setBank .system { (at_ 0).bank .system with dsl := 0xFF, esl := 0xFF, fsl := 0xFF, gsl := 0xFF, csl := 0xFF }

/-- ssp and the system stack bounds set. -/
def stacked (sp sl su : Word) : State :=
  (at_ 0x10).setBank .system { (at_ 0x10).bank .system with sp := sp, sl := sl, su := su }

/-- The same, with a segment value of its own in each segment register of the system set. -/
def segmented (sp sl su : Word) : State :=
  (at_ 0x10).setBank .system
    { (at_ 0x10).bank .system with
      sp := sp, sl := sl, su := su, ds := 0x10, es := 0x20, fs := 0x30, gs := 0x40, cs := 0x50 }

/-- The four consecutive locations from `a`. -/
def frameFrom (a : LinAddr) : FrameAddrs := ⟨a, a + 1, a + 2, a + 3⟩

theorem witness_ResetReleasesStatedValues : State.reset.resetPending = true := rfl

/-- Each selector, at the limit (an address) and one past it (the bounds exception). -/
theorem witness_DataAccessFollowsSegmentAndLimit : ∀ k ∈ ([0, 1, 2, 3, 4, 7] : List Nat),
    (29#5).toNat ≤ 29 ∧ (BitVec.ofNat 32 (k * 2 ^ 29 + 0xFF)).toNat / 2 ^ 29 = k ∧
    (BitVec.ofNat 32 (k * 2 ^ 29 + 0x100)).toNat / 2 ^ 29 = k ∧
    accessAddr 29 (BitVec.ofNat 32 (k * 2 ^ 29 + 0xFF)) limited = .address 0xFF ∧
    accessAddr 29 (BitVec.ofNat 32 (k * 2 ^ 29 + 0x100)) limited = .raised (.boundsData 0x100 0) := by decide

/-- Each selector, at the lower bound with its margin, one below it, at the upper bound and one above it. -/
theorem witness_StackAccessFollowsStackBounds : ∀ k ∈ ([0, 1, 2, 3, 4, 7] : List Nat),
    30 ≤ (30#5).toNat ∧ (BitVec.ofNat 32 (k * 2 ^ 29 + 0x101)).toNat / 2 ^ 29 = k ∧
    accessAddr 30 (BitVec.ofNat 32 (k * 2 ^ 29 + 4)) (at_ 0) = .address 4 ∧
    accessAddr 30 (BitVec.ofNat 32 (k * 2 ^ 29 + 3)) (at_ 0) = .raised (.stackFault 3 0) ∧
    accessAddr 30 (BitVec.ofNat 32 (k * 2 ^ 29 + 0x100)) (at_ 0) = .address 0x100 ∧
    accessAddr 30 (BitVec.ofNat 32 (k * 2 ^ 29 + 0x101)) (at_ 0) = .raised (.stackFault 0x101 0) := by decide

theorem witness_ReservedSelectorsAreRefused :
    (0xA0000004#32).toNat / 2 ^ 29 = 5 ∧ (0xDFFFFFFF#32).toNat / 2 ^ 29 = 6 := by decide

/-- ADD at a pc equal to the code limit, with interrupts masked and not masked. -/
theorem witness_StepRunsDecodedInstruction : ∀ im : Bool,
    let s := ((at_ 0x10).withFetchWord 32 0x20018822).setIm im
    s.resetPending = false ∧ s.pc.toNat = (s.bank s.mode).csl.toNat ∧
    decode (s.readWord (lin (s.bank s.mode).cs s.pc)) (s.readWord (lin (s.bank s.mode).cs (s.pc + 1)))
      (s.readWord (lin (s.bank s.mode).cs (s.pc + 2))) = .ok (.add 3 2 1) ∧
    (Instr.add 3 2 1).wellFormed = true := by
  intro im
  cases im <;> decide

theorem witness_PlacedInstructionRunsNext : decodeTableWord 32 0x20018822 = some (.add 3 2 1) := rfl

theorem witness_DecodeOfEncodeIsIdentity :
    (Instr.addi 1 2 0x10800).wellFormed = true ∧ (Instr.jmf 1 2 3 3 4).wellFormed = true := by decide

/-- One, two and three words. -/
theorem witness_EncodeOfDecodeIsIdentity_and_LengthIsFoundFromFirstWord :
    decode 0x20018822 0 0 = .ok (.add 3 2 1) ∧ decode 0x80000824 7 0 = .ok (.addiL 2 1 0 7) ∧
    decode 0x00000814 0x1000 0xE0000FFF = .ok (.jmf 0x40 0x1000 7 0 0xFFF) := ⟨rfl, rfl, rfl⟩

theorem witness_DecodeFollowsOpcodeTable : ⟨"ADD", 0x20000002, 0xFFF0001F, false, 1⟩ ∈ opcodeTable := by decide

theorem witness_WordsOutsideTheTableAreRefused :
    (∀ row ∈ opcodeTable, row.applies 0x00000005 = false) ∧ blankCell 0x00000005 = true ∧
    (∀ row ∈ opcodeTable, row.applies 0x20118822 = false) ∧ blankCell 0x20118822 = false := by decide

theorem witness_OutsideInferredFormatRefused : 1#7 ≠ 0#7 ∧ 0x1F#5 ≠ 0#5 ∧ 1#27 ≠ 0#27 := by decide

theorem witness_NameOnlyOperationsRefused :
    ∀ f ∈ ([0x00, 0x01, 0x02, 0x0B, 0x0F, 0x14, 0x15, 0x16, 0x17, 0x18, 0x19] : List Nat),
      (BitVec.ofNat 32 (f * 2 ^ 27 + 0x42)).extractLsb' 0 5 = 0x02#5 ∧
      (BitVec.ofNat 32 (f * 2 ^ 27 + 0x42)).extractLsb' 27 5 = BitVec.ofNat 5 f := by decide

theorem witness_NameOnlyTransfersAndSystemRefused :
    ∀ f ∈ ([0x1E, 0x1F, 0x10, 0x11, 0x12, 0x1A, 0x1C] : List Nat),
      (BitVec.ofNat 32 (f * 2 ^ 27 + 0x42)).extractLsb' 0 5 = 0x02#5 ∧
      (BitVec.ofNat 32 (f * 2 ^ 27 + 0x42)).extractLsb' 27 5 = BitVec.ofNat 5 f := by decide

theorem witness_NameOnlyMajorOpcodesRefused : ∀ o ∈ ([0x1C, 0x1D, 0x1E, 0x1F, 0x11] : List Nat),
    (BitVec.ofNat 32 (0x40 + o)).extractLsb' 0 5 = BitVec.ofNat 5 o := by decide

/-- The flags after a compare of the most negative number with 1. -/
theorem witness_BranchesAfterCompareDecideOrder :
    IsCompare 0x80000000 1 (((at_ 0).setFlags .system (compareFlags 0x80000000 1 false)).bank .system).flags :=
  compareFlags_isCompare _ _ _

theorem witness_LongPatternBranchIsRefused :
    (0x80000403#32).extractLsb' 0 5 = 0x03#5 ∧ (0x80000403#32).extractLsb' 26 6 = 0b100000#6 := by decide

/-- In system and in debug mode, naming the current set by its number and by 7. -/
theorem witness_FarJumpLoadsCodeSegment :
    (at_ 0).Supervisor ∧ NamesSet 2 (at_ 0).mode (at_ 0).mode ∧ NamesSet 7 (at_ 0).mode (at_ 0).mode ∧
    ((at_ 0).setMode .debug).Supervisor ∧ NamesSet 3 .debug .debug :=
  ⟨.inl rfl, .inl rfl, .inr ⟨rfl, rfl⟩, .inr rfl, .inl rfl⟩

/-- The frame at the lowest ssp and at the highest, in each segment, and over the end of one segment into the next. -/
theorem witness_BrkTakesTheTrap_and_ExceptionEntryRecordsFault :
    (∀ row ∈ ([(0, 0x10000), (1, 0x20000), (2, 0x30000), (3, 0x40000), (4, 0x50000), (7, 0x10000)] :
        List (Nat × LinAddr)),
      (segmented (BitVec.ofNat 32 (row.1 * 2 ^ 29 + 0x14)) 0x10 0x100).PushesFrame (frameFrom (row.2 + 0x10)) ∧
      (segmented (BitVec.ofNat 32 (row.1 * 2 ^ 29 + 0x101)) 0x10 0x100).PushesFrame (frameFrom (row.2 + 0xFD))) ∧
    (segmented 0x20000002 0 0xFFFFFFFF).PushesFrame ⟨0x2000FFFE, 0x2000FFFF, 0x20000, 0x20001⟩ := by
  simp only [State.PushesFrame, State.frameAt_iff]
  decide

theorem witness_PrivilegedInstructionsTrapInUserModes :
    ((at_ 0).setMode .user1).mode = .user1 ∧ ((at_ 0).setMode .user2).mode = .user2 ∧
    ((at_ 0).setMode .user1).PushesFrame (frameFrom 0xFC) ∧
    (∃ offset segment ts u limit, Instr.jmf 1 2 4 3 5 = .jmf offset segment ts u limit) ∧
    (∃ spr rt, Instr.mfspr 0 1 = .mfspr spr rt) ∧ (∃ rt ra, Instr.rti 1 2 = .rti rt ra) := by
  refine ⟨rfl, rfl, ?_, ⟨_, _, _, _, _, rfl⟩, ⟨_, _, rfl⟩, ⟨_, _, rfl⟩⟩
  simp only [State.PushesFrame, State.frameAt_iff]
  decide

/-- A pc one past the code limit, with interrupts masked and not masked. -/
theorem witness_FetchBeyondCodeLimitTraps : ∀ im : Bool,
    let s := ((at_ 0x10).setCode .system 0x20 0xF).setIm im
    s.resetPending = false ∧ s.im = im ∧ (s.bank s.mode).csl.toNat < s.pc.toNat ∧
      s.PushesFrame (frameFrom 0xFC) := by
  simp only [State.PushesFrame, State.frameAt_iff]
  decide

theorem witness_InterruptForcesBrkUnlessMasked :
    (at_ 0).resetPending = false ∧ (at_ 0).im = true ∧ ((at_ 0).setIm false).im = false ∧
    ((at_ 0).setIm false).PushesFrame (frameFrom 0xFC) := by
  simp only [State.PushesFrame, State.frameAt_iff]
  decide

/-- A push one above the upper bound, one below the lower, with selectors 5 and 6, and each push in turn failing. -/
theorem witness_FailingTrapSequenceIsStuck_pushes :
    (stacked 0x102 0 0x100).StackAccessFails (0x102 - 1#32) ∧ (stacked 0x11 0x10 0x100).StackAccessFails (0x11 - 2#32) ∧
    (stacked 2 0 0x100).StackAccessFails (2 - 3#32) ∧ (stacked 3 0 0x100).StackAccessFails (3 - 4#32) ∧
    (stacked 0xA0000004 0 0x100).StackAccessFails (0xA0000004 - 4#32) ∧
    (stacked 0xC0000004 0 0x100).StackAccessFails (0xC0000004 - 4#32) := by
  unfold State.StackAccessFails
  decide

/-- The same for each pop. -/
theorem witness_FailingTrapSequenceIsStuck_pops :
    (stacked 0x101 0 0x100).mode = .system ∧ (stacked 0x101 0 0x100).StackAccessFails (0x101 + 0#32) ∧
    (stacked 0x100 0 0x100).StackAccessFails (0x100 + 1#32) ∧ (stacked 0xFF 0 0x100).StackAccessFails (0xFF + 2#32) ∧
    (stacked 0xFE 0 0x100).StackAccessFails (0xFE + 3#32) ∧ (stacked 0xF 0x10 0x100).StackAccessFails (0xF + 0#32) := by
  unfold State.StackAccessFails
  decide

/-- A frame at the lowest and at the highest place the bounds admit, in each segment. -/
theorem witness_RtiRestoresTheFrame :
    (segmented 0x10 0x10 0x100).mode = .system ∧
    ∀ row ∈ ([(0, 0x10000), (1, 0x20000), (2, 0x30000), (3, 0x40000), (4, 0x50000), (7, 0x10000)] :
        List (Nat × LinAddr)),
      let low := segmented (BitVec.ofNat 32 (row.1 * 2 ^ 29 + 0x10)) 0x10 0x100
      let high := segmented (BitVec.ofNat 32 (row.1 * 2 ^ 29 + 0xFD)) 0x10 0x100
      low.FrameAt (low.reg .system 31#5) (frameFrom (row.2 + 0x10)) ∧
      high.FrameAt (high.reg .system 31#5) (frameFrom (row.2 + 0xFD)) := by
  simp only [State.frameAt_iff]
  decide

/-- A frame in the stack segment with cs other than vcs, and one in the code segment with cs = vcs. -/
theorem witness_RtiUndoesBrk :
    let s := segmented 0x100 0 0x100
    let c := (stacked 0x80000100 0 0x100).setCode .system 0xFFFFFFFF 0xFF
    s.PushesFrame (frameFrom 0x100FC) ∧
    (∀ k ∈ [1#32, 2#32, 3#32, 4#32], (s.reg .system 31#5 - k).toNat / 2 ^ 29 ≠ 4) ∧
    c.PushesFrame (frameFrom 0xFFFFFFFF0FC) ∧ (c.bank .system).cs = c.vcs := by
  simp only [State.PushesFrame, State.frameAt_iff]
  refine ⟨by decide, fun k hk => ?_, by decide, rfl⟩
  simp only [List.mem_cons, List.not_mem_nil, or_false] at hk
  rcases hk with rfl | rfl | rfl | rfl <;> decide

/-- Base register 29 at the limit of each segment and one past it, base register 30 at each stack bound and one outside
it, r0 as base, a sum that wraps, and the reserved selectors. -/
theorem witness_LoadStoreAccessIsCheckedFirst :
    (∀ k ∈ ([0, 1, 2, 3, 4, 7] : List Nat), ∀ o ∈ ([3, 4, 0xFF, 0x100, 0x101] : List Nat),
      (0 + (BitVec.ofNat 32 (k * 2 ^ 29 + o)).toNat) % 2 ^ 32 / 2 ^ 29 = k) ∧
    (limited.reg .system 29#5).toNat = 0 ∧ (limited.reg .system 30#5).toNat = 0 ∧
    (limited.bank .system).esl.toNat = 0xFF ∧ (limited.bank .system).sl.toNat = 0 ∧
    (limited.bank .system).su.toNat = 0x100 ∧ limited.PushesFrame (frameFrom 0xFC) ∧
    (0xFFFFFFFF + (2#32).toNat) % 2 ^ 32 / 2 ^ 29 = 0 ∧ (0x9FFFFFFF + (1#32).toNat) % 2 ^ 32 / 2 ^ 29 = 5 ∧
    (0xDFFFFFFF + (0#32).toNat) % 2 ^ 32 / 2 ^ 29 = 6 := by
  simp only [State.PushesFrame, State.frameAt_iff]
  decide

/-- In a user mode to its own and to the system set, and between any two sets outside the user modes. -/
theorem witness_MovCopiesBetweenSets :
    NamesSet 7 .user1 .user1 ∧ NamesSet 0 .user1 .user1 ∧ NamesSet 2 .user1 .system ∧
    (at_ 0).Supervisor ∧ NamesSet 0 (at_ 0).mode .user1 ∧ NamesSet 3 (at_ 0).mode .debug :=
  ⟨.inr ⟨rfl, rfl⟩, .inl rfl, .inl rfl, .inl rfl, .inl rfl, .inl rfl⟩

theorem witness_MfsprReadsTheNamedState : (at_ 0).Supervisor ∧ ((at_ 0).setMode .debug).Supervisor :=
  ⟨.inl rfl, .inr rfl⟩

/-- Each clause: JMF with u = 1, JMF with Ts = 0, 3 and 4 in system mode, debug mode, codes 4 and 6, moves out of a
foreign set and into one, and the first and last numbers with no register. -/
theorem witness_UnspecifiedSystemFormsRefused :
    (at_ 0).Supervisor ∧ 1#2 ≠ 0#2 ∧ (∀ ts ∈ [0#3, 3#3, 4#3], ¬ NamesSet ts .system .system) ∧
    ((at_ 0).setMode .debug).mode = .debug ∧ 4#3 ∈ [4#3, 5#3, 6#3] ∧ 6#3 ∈ [4#3, 5#3, 6#3] ∧
    (NamesSet 2 .user1 .system ∧ NamesSet 0 .user1 .user1 ∧ Mode.system ≠ .user1) ∧
    (NamesSet 0 .user1 .user1 ∧ NamesSet 1 .user1 .user2 ∧ Mode.user2 ≠ .user1 ∧ Mode.user2 ≠ .system) ∧
    (0x00#7).toNat ∈ [0x00, 0x01, 0x04, 0x05, 0x06, 0x07, 0x1C, 0x1D, 0x1E, 0x1F, 0x4C, 0x4D, 0x4E, 0x4F] ∧
    0x54 ≤ (0x54#7).toNat ∧ 0x54 ≤ (0x7F#7).toNat := by
  unfold NamesSet
  refine ⟨.inl rfl, ?_⟩
  decide

theorem witness_EveryStepKeepsMemoryCanonical : State.reset.Inv ∧ ∃ t, step State.reset = .next t :=
  ⟨rfl, (holds_next (p := fun _ => true) (by decide)).imp fun _ h => h.1⟩

theorem witness_NoStepChangesDataSegmentsOrVcs : ∃ t, run (at_ 0x10) 0x20018822 = .next t :=
  (holds_next (p := fun _ => true) (by decide)).imp fun _ h => h.1

/-- A word of DBG, and RTI from system mode with 3 in bits 9..8 of the popped word. -/
theorem witness_DebugModeIsEnteredOnlyByRti :
    (0xE0000042#32).extractLsb' 0 5 = 0x02#5 ∧ (0xE0000042#32).extractLsb' 27 5 = 0x1C#5 ∧
    ((framed 0x300).withFetchWord 32 0x98000002).mode ≠ .debug ∧
    ∃ t, run (framed 0x300) 0x98000002 = .next t ∧ (t.mode == .debug) = true :=
  ⟨by decide, by decide, by decide, holds_next (by decide)⟩

/-- A user mode that stays (ADD) and one that traps (BRK). -/
theorem witness_UserModeStepIsConfined :
    (∃ t, run ((at_ 0x10).setMode .user1) 0x20018822 = .next t ∧ (t.mode == .user1) = true) ∧
    (∃ t, run ((at_ 0x10).setMode .user2) 0x000000A0 = .next t ∧ (t.mode == .system) = true) :=
  ⟨holds_next (by decide), holds_next (by decide)⟩

/-- CMPI sets a flag, RTI sets RF. -/
theorem witness_StatusBitsChangeOnlyByCompareOrRti :
    (∃ t, run (sys 5 0) 0x00050026 = .next t ∧ (t.bank .system).flags.cf = true) ∧
    (sys 5 0).rf = false ∧ ((sys 5 0).bank .system).flags.cf = false ∧
    (∃ t, run (framed 0x210) 0x98000002 = .next t ∧ t.rf = true) ∧ (framed 0x210).rf = false :=
  ⟨holds_next (by decide), rfl, rfl, holds_next (by decide), rfl⟩

/-- The fetch bounds exception, and Priv by MFSPR in a user mode. -/
theorem witness_FaultRegistersChangeOnlyByExceptions :
    (∃ t, step ((at_ 0x10).setCode .system 0x20 0xF) = .next t ∧ (t.faultPc != (at_ 0x10).faultPc) = true) ∧
    (∃ t, run ((at_ 0x10).setMode .user1) 0xD8208002 = .next t ∧ (t.faultPc != (at_ 0x10).faultPc) = true) :=
  ⟨holds_next (by decide), holds_next (by decide)⟩

/-- BRK over a location that held another word. -/
theorem witness_MemoryChangesOnlyByTrapFrames :
    let s := ((at_ 0x10).writeWord 0xFF 0xABCD).withFetchWord 32 0x000000A0
    ∃ t, step s = .next t ∧ (t.readWord 0xFF != s.readWord 0xFF) = true :=
  holds_next (by decide)

end Sys2Proof.Tests
end

section
/-! PROOFS. Immediate operate: the words of formats RI and RIL as numbers, the frame of an instruction that writes one
register, and ANDI in both forms. -/

namespace Sys2Proof.Machine

/-! ## Formats RI and RIL as numbers -/

/-- The word of format RI, each field weighted by its position (R113). -/
theorem encodeRI_eq_ofNat (op : BitVec 5) (imm : BitVec 17) (rt ra : Reg) :
    encodeRI op imm rt ra =
      BitVec.ofNat 32 (imm.toNat * 2 ^ 15 + rt.toNat * 2 ^ 10 + ra.toNat * 2 ^ 5 + op.toNat) := by
  apply BitVec.eq_of_toNat_eq
  simp only [encodeRI, toNat_append_add, BitVec.toNat_ofNat]
  omega

/-- The first word of format RIL, each field weighted by its position; its pattern 100000b is bit 31 alone (R114). -/
theorem encodeRIL_eq_ofNat (op : BitVec 5) (x : BitVec 11) (rt ra : Reg) :
    encodeRIL op x rt ra =
      BitVec.ofNat 32 (2 ^ 31 + x.toNat * 2 ^ 15 + rt.toNat * 2 ^ 10 + ra.toNat * 2 ^ 5 + op.toNat) := by
  apply BitVec.eq_of_toNat_eq
  simp only [encodeRIL, toNat_append_add, BitVec.toNat_ofNat]
  omega

/-! ## Instructions that write one register -/

/-- `writeX` completes with pc advanced, and the target register of the current set alone is written (R160). -/
theorem writeX_next_onlyRegChanges (rt : Reg) (v n : Word) (s : State) :
    ∃ t, writeX rt v n s = .next t ∧ t.pc = s.pc + n ∧ OnlyRegChanges s.mode rt v s t :=
  ⟨_, writeX_eq rt v n s, State.setPc_pc .., State.setReg_setPc_onlyRegChanges s s.mode rt v (s.pc + n)⟩

/-! ## ANDI (R142) -/

/-- The short form writes the conjunction with the sign-extended immediate, and is one word long. -/
theorem exec_andi (rt ra : Reg) (imm : BitVec 17) (s : State) :
    exec (.andi rt ra imm) s = writeX rt (s.reg s.mode ra &&& imm.signExtend 32) 1 s := rfl

/-- The long form writes the conjunction with its second word, and is two words long. -/
theorem exec_andiL (rt ra : Reg) (x : BitVec 11) (word : Word) (s : State) :
    exec (.andiL rt ra x word) s = writeX rt (s.reg s.mode ra &&& word) 2 s := rfl

/-- Settles O18: the words by the formats RI and RIL, the effect of both forms by the frame of `writeX`. -/
theorem andImmediateWritesConjunction : Obligations.AndImmediateWritesConjunction := by
  intro s rt ra imm x word
  have short_word := encodeRI_eq_ofNat 0x08#5 imm rt ra
  have long_word := encodeRIL_eq_ofNat 0x08#5 x rt ra
  refine ⟨congrArg (fun w => [w]) short_word, congrArg (fun w => [w, word]) long_word, ?_, ?_⟩
  · rw [exec_andi]
    exact writeX_next_onlyRegChanges rt (s.reg s.mode ra &&& imm.signExtend 32) 1 s
  · rw [exec_andiL]
    exact writeX_next_onlyRegChanges rt (s.reg s.mode ra &&& word) 2 s

end Sys2Proof.Machine
end

section
/-! PROOFS. Register operate: the words of formats RR and SG as numbers, AND and SEG, and the functions of the register
group that the spec knows by name and number only. -/

namespace Sys2Proof.Machine

/-! ## Formats RR, MV and SG as numbers -/

/-- The word of format RR, each field weighted by its position (R112). -/
theorem encodeRR_eq_ofNat (func : BitVec 5) (u : BitVec 7) (rt rb ra : Reg) :
    encodeRR func u rt rb ra =
      BitVec.ofNat 32 (func.toNat * 2 ^ 27 + u.toNat * 2 ^ 20 + 0x02 + rt.toNat * 2 ^ 15 + rb.toNat * 2 ^ 10 +
        ra.toNat * 2 ^ 5) := by
  apply BitVec.eq_of_toNat_eq
  simp only [encodeRR, toNat_append_add, BitVec.toNat_ofNat]
  omega

/-- The word of formats MV and SG, each field weighted by its position (R119, R122). -/
theorem encodeMV_eq_ofNat (func : BitVec 5) (ts : BitVec 3) (rt : Reg) (ss : BitVec 3) (ra : Reg) :
    encodeMV func ts rt ss ra =
      BitVec.ofNat 32 (func.toNat * 2 ^ 27 + ts.toNat * 2 ^ 20 + 0x02 + rt.toNat * 2 ^ 15 + ss.toNat * 2 ^ 10 +
        ra.toNat * 2 ^ 5) := by
  apply BitVec.eq_of_toNat_eq
  simp only [encodeMV, toNat_append_add, BitVec.toNat_ofNat]
  omega

/-! ## AND (R167) -/

/-- AND writes the conjunction of its two sources, and is one word long. -/
theorem exec_andr (rt rb ra : Reg) (s : State) :
    exec (.andr rt rb ra) s = writeX rt (s.reg s.mode ra &&& s.reg s.mode rb) 1 s := rfl

/-- Settles O22: the word by format RR with function 08h, the effect by the frame of `writeX`. -/
theorem andWritesConjunction : Obligations.AndWritesConjunction := by
  intro s rt rb ra
  have word := encodeRR_eq_ofNat 0x08#5 0#7 rt rb ra
  refine ⟨congrArg (fun w => [w]) word, ?_⟩
  rw [exec_andr]
  exact writeX_next_onlyRegChanges rt (s.reg s.mode ra &&& s.reg s.mode rb) 1 s

/-! ## SEG (R181) -/

/-- What SEG writes: the selector in bits 31..29 over bits 28..0 of the source. -/
def segValue (imm3 : BitVec 3) (v : Word) : Word := imm3 ++ v.extractLsb' 0 29

/-- The value SEG writes as a number: the source modulo 2^29 under the selector. -/
theorem segValue_toNat (imm3 : BitVec 3) (v : Word) :
    (segValue imm3 v).toNat = imm3.toNat * 2 ^ 29 + v.toNat % 2 ^ 29 := by
  rw [segValue, toNat_append_add, BitVec.extractLsb'_toNat, Nat.shiftRight_zero]

/-- SEG writes its source with the selector replaced, and is one word long. -/
theorem exec_seg (rt : Reg) (imm3 : BitVec 3) (ra : Reg) (s : State) :
    exec (.seg rt imm3 ra) s = writeX rt (segValue imm3 (s.reg s.mode ra)) 1 s := rfl

/-- Settles O23: the word by format SG with function 1Dh, the value as a number, the effect by the frame of `writeX`. -/
theorem segWritesSelector : Obligations.SegWritesSelector := by
  intro s rt ra imm3
  have word := encodeMV_eq_ofNat 0x1D#5 0#3 rt imm3 ra
  have value := segValue_toNat imm3 (s.reg s.mode ra)
  obtain ⟨t, next, pc, frame⟩ := writeX_next_onlyRegChanges rt (segValue imm3 (s.reg s.mode ra)) 1 s
  refine ⟨congrArg (fun w => [w]) word, t, segValue imm3 (s.reg s.mode ra), ?_, pc, value, frame⟩
  rw [exec_seg]
  exact next

/-! ## Known by name and number only -/

/-- The register operations with no format and no operation in the spec, each with its function number (R161 to R163,
R170, R174 to R180). -/
def nameOnlyOperations : List ((BitVec 22 → Instr) × BitVec 5) :=
  [(.notr, 0x00#5), (.neg, 0x01#5), (.com, 0x02#5), (.andc, 0x0B#5), (.orc, 0x0F#5), (.shli, 0x14#5), (.shri, 0x15#5),
    (.shl, 0x16#5), (.shr, 0x17#5), (.asri, 0x18#5), (.asr, 0x19#5)]

/-- The other functions of the register group with no format and no operation in the spec (R182, R183, R233 to R235,
R246, R247). -/
def nameOnlyTransfersAndSystem : List ((BitVec 22 → Instr) × BitVec 5) :=
  [(.exs, 0x1E#5), (.exl, 0x1F#5), (.jmpr, 0x10#5), (.jsrr, 0x11#5), (.rts, 0x12#5), (.mtspr, 0x1A#5), (.dbg, 0x1C#5)]

/-- Every function of the register group that the spec knows by name and number only. -/
def nameOnlyFunctions : List ((BitVec 22 → Instr) × BitVec 5) := nameOnlyOperations ++ nameOnlyTransfersAndSystem

/-- A word with major opcode 02h is an instruction of the register group, whatever words follow it (R124). -/
theorem decode_of_group {w0 : Word} (h : opcodeOf w0 = 0x02#5) (w1 w2 : Word) : decode w0 w1 w2 = decodeGroup w0 := by
  simp [decode, h]

/-- A function known by name only is decoded from its number alone, and every other bit is kept. -/
theorem decodeGroup_of_nameOnly {w : Word} :
    ∀ row ∈ nameOnlyFunctions, funcOf w = row.2 → decodeGroup w = .ok (row.1 (field22 w)) := by
  intro row hrow func
  fin_cases hrow <;> simp only [decodeGroup, func] <;> rfl

/-- A function known by name only is refused in every state. -/
theorem exec_of_nameOnly (s : State) (rest : BitVec 22) :
    ∀ row ∈ nameOnlyFunctions, exec (row.1 rest) s = .refused .mapOnlyInstruction := by
  intro row hrow
  fin_cases hrow <;> rfl

/-- A function known by name only: refused in every state, and decoded from any word with its number. -/
theorem nameOnly_refused_and_decoded {row : (BitVec 22 → Instr) × BitVec 5} (hrow : row ∈ nameOnlyFunctions) :
    (∀ (s : State) (rest : BitVec 22), exec (row.1 rest) s = .refused .mapOnlyInstruction) ∧
    ∀ (w0 w1 w2 : Word), w0.extractLsb' 0 5 = 0x02#5 → w0.extractLsb' 27 5 = row.2 →
      decode w0 w1 w2 = .ok (row.1 (w0.extractLsb' 5 22)) := by
  refine ⟨fun s rest => exec_of_nameOnly s rest row hrow, fun w0 w1 w2 opcode func => ?_⟩
  rw [decode_of_group opcode]
  exact decodeGroup_of_nameOnly row hrow func

/-- Settles O27: the eleven are the name-only operations. -/
theorem nameOnlyOperationsRefused : Obligations.NameOnlyOperationsRefused :=
  fun _ hrow => nameOnly_refused_and_decoded (List.mem_append_left nameOnlyTransfersAndSystem hrow)

/-- Settles O28: the seven are the name-only transfers and system functions. -/
theorem nameOnlyTransfersAndSystemRefused : Obligations.NameOnlyTransfersAndSystemRefused :=
  fun _ hrow => nameOnly_refused_and_decoded (List.mem_append_right nameOnlyOperations hrow)

end Sys2Proof.Machine
end

section
/-! PROOFS. Control transfer and load/store: the fixed bits of format BR and the refusal of BSR, and the major opcodes that
the spec knows by name only. -/

namespace Sys2Proof.Machine

/-! ## BSR (R203) -/

/-- The mask 0x00007C1F keeps the condition and the opcode of a branch word, and clears the immediate and Ra (R115). -/
theorem encodeBR_and_mask (cond : BitVec 5) (imm : BitVec 17) (ra : Reg) :
    encodeBR cond imm ra &&& 0x00007C1F#32 = 0#17 ++ cond ++ 0#5 ++ 0x03#5 :=
  calc encodeBR cond imm ra &&& 0x00007C1F#32
    _ = (imm ++ cond ++ ra ++ 0x03#5) &&& (0#17 ++ BitVec.allOnes 5 ++ 0#5 ++ BitVec.allOnes 5) := rfl
    _ = 0#17 ++ cond ++ 0#5 ++ 0x03#5 := by
      simp only [BitVec.and_append, BitVec.and_zero, BitVec.and_allOnes]

/-- BSR is refused for want of a link, whatever its operands (R203). -/
theorem exec_bsr (imm : BitVec 17) (ra : Reg) (s : State) :
    exec (.bsr imm ra) s = .refused .bsrLinkUnspecified := rfl

/-- Settles O36: the match value is condition 01h over opcode 03h, and the meaning is the refusal. -/
theorem bsrIsRefused : Obligations.BsrIsRefused :=
  fun s imm ra => ⟨encodeBR_and_mask 0x01#5 imm ra, exec_bsr imm ra s⟩

/-! ## Major opcodes known by name only -/

/-- The major opcodes with no format and no operation in the spec (R280 to R283, R231). -/
def nameOnlyMajorOpcodes : List ((BitVec 27 → Instr) × BitVec 5) :=
  [(.ld, 0x1C#5), (.ldar, 0x1D#5), (.st, 0x1E#5), (.stcr, 0x1F#5), (.jsr, 0x11#5)]

/-- A major opcode known by name only is decoded from its number alone, and every other bit is kept (R123). -/
theorem decode_of_nameOnlyMajor {w0 : Word} (w1 w2 : Word) :
    ∀ row ∈ nameOnlyMajorOpcodes, opcodeOf w0 = row.2 → decode w0 w1 w2 = .ok (row.1 (field27 w0)) := by
  intro row hrow opcode
  fin_cases hrow <;> simp only [decode, opcode] <;> rfl

/-- A major opcode known by name only is refused in every state. -/
theorem exec_of_nameOnlyMajor (s : State) (rest : BitVec 27) :
    ∀ row ∈ nameOnlyMajorOpcodes, exec (row.1 rest) s = .refused .mapOnlyInstruction := by
  intro row hrow
  fin_cases hrow <;> rfl

/-- Settles O29: the five are the major opcodes known by name only. -/
theorem nameOnlyMajorOpcodesRefused : Obligations.NameOnlyMajorOpcodesRefused :=
  fun row hrow => ⟨fun s rest => exec_of_nameOnlyMajor s rest row hrow,
    fun _ w1 w2 opcode => decode_of_nameOnlyMajor w1 w2 row hrow opcode⟩

end Sys2Proof.Machine
end

section
/-! PROOFS. Debug mode: what a trap entry and RTI leave in the Mode field, and the only way into mode 3. -/

namespace Sys2Proof.Machine

/-! ## The mode after a trap entry and after RTI -/

/-- Debug mode is the mode of the number 3 alone (R20). -/
theorem Mode.ofBits_eq_debug_iff (b : BitVec 2) : Mode.ofBits b = .debug ↔ b = 3#2 := by
  revert b
  decide

/-- A trap sequence that completes is in system mode, whatever mode it interrupted (R240). -/
theorem brkSequence_next_mode {vector : VectorNo} {savedPc : Word} {s t : State}
    (h : brkSequence vector savedPc s = .next t) : t.mode = .system := by
  obtain ⟨f, -, rfl⟩ := brkSequence_next h
  simp

/-- The pops of RTI leave the mode that the popped MSW names (R242). -/
theorem returnFromTrap_mode (f : FrameAddrs) (s : State) :
    (returnFromTrap f s).mode = Mode.ofBits (modeBitsOfMsw (s.readWord f.msw)) := by
  simp [returnFromTrap_eq, writeMsw_eq]

/-! ## Entering debug mode (R247) -/

/-- The popped word behind an entry of debug mode: RTI is decoded at pc, its frame passes, and bits 9..8 of the word it
pops into the MSW are 3. -/
def State.PopsDebugMode (s : State) : Prop :=
  ∃ rt ra f, s.decodeNext = .ok (.rti rt ra) ∧ trapFrame (s.reg .system 31#5) s = some f ∧
    (s.readWord f.msw).extractLsb' 8 2 = 3#2

/-- A poll that delivers nothing does not touch the instruction at pc or the frame RTI pops. -/
theorem State.PopsDebugMode.of_tick {s : State} (h : s.tick.PopsDebugMode) : s.PopsDebugMode := h

/-- An instruction keeps the mode, or leaves it in system mode, or is an RTI and leaves the mode its popped word names. -/
theorem exec_next_mode {i : Instr} {s t : State} (h : exec i s = .next t) :
    t.mode = s.mode ∨ t.mode = .system ∨
      ∃ rt ra f, i = .rti rt ra ∧ trapFrame (s.bank .system).sp s = some f ∧
        t.mode = Mode.ofBits (modeBitsOfMsw (s.readWord f.msw)) := by
  cases exec_cases h with
  | assignsPc u pc hu ht => rcases hu with rfl | rfl <;> simp [ht]
  | writesReg u r v pc hu ht => rcases hu with rfl | rfl <;> simp [ht]
  | movesReg m source r v pc hm ht => simp [ht]
  | compares f pc hi ht => simp [ht]
  | farJump cs csl pc hm ht => simp [ht]
  | breaks vector hi ht => exact .inr (.inl (brkSequence_next_mode ht))
  | priv hm hi ht => exact .inr (.inl (brkSequence_next_mode ht))
  | returns rt ra f hm hi hf ht =>
    refine .inr (.inr ⟨rt, ra, f, hi, hf, ?_⟩)
    rw [ht, State.setReg_mode, returnFromTrap_mode]

/-- An instruction that enters debug mode is an RTI whose popped word has 3 in bits 9..8. -/
theorem popsDebugMode_of_exec_enters_debug {i : Instr} {s t : State} (decoded : s.decodeNext = .ok i)
    (h : exec i s = .next t) (before : s.mode ≠ .debug) (after : t.mode = .debug) : s.PopsDebugMode := by
  rcases exec_next_mode h with same | system | ⟨rt, ra, f, rfl, frame, mode⟩
  · exact absurd (same.symm.trans after) before
  · simp [system] at after
  · exact ⟨rt, ra, f, decoded, frame, (Mode.ofBits_eq_debug_iff _).1 (mode.symm.trans after)⟩

/-- A step that enters debug mode ran an RTI whose popped word has 3 in bits 9..8: the reset BRK, an interrupt and a
fetch outside the code limit all end in system mode. -/
theorem popsDebugMode_of_step_enters_debug {s t : State} (h : step s = .next t) (before : s.mode ≠ .debug)
    (after : t.mode = .debug) : s.PopsDebugMode := by
  have not_trap {vector savedPc} {u : State} : brkSequence vector savedPc u ≠ .next t := fun trap => by
    simp [brkSequence_next_mode trap] at after
  rcases step_cases h with ⟨-, reset⟩ | ⟨-, -, v, -, interrupt⟩ | ⟨-, u, polled, ⟨-, fetch⟩ | ⟨-, i, decoded, run⟩⟩
  · exact absurd reset not_trap
  · exact absurd interrupt not_trap
  · exact absurd fetch not_trap
  · rcases polled with rfl | ⟨-, rfl⟩
    · exact popsDebugMode_of_exec_enters_debug decoded run before after
    · exact .of_tick (popsDebugMode_of_exec_enters_debug decoded run before after)

/-- Settles O54: DBG is one of the functions known by name only, and every entry of debug mode pops its mode. -/
theorem debugModeIsEnteredOnlyByRti : Obligations.DebugModeIsEnteredOnlyByRti := by
  have dbg : (Instr.dbg, 0x1C#5) ∈ nameOnlyFunctions := by simp [nameOnlyFunctions, nameOnlyTransfersAndSystem]
  obtain ⟨refused, decoded⟩ := nameOnly_refused_and_decoded dbg
  exact ⟨refused, decoded, fun _ _ => popsDebugMode_of_step_enters_debug⟩

end Sys2Proof.Machine
end

section
/-! PROOFS. Encoding: the fields of each format's word, that a word is the word of its fields, and from these the two
round trips between instructions and words, and the length. -/

namespace Sys2Proof.Machine

/-! ## The fields of the word of each format (R112 to R122) -/

/-- A field of a word as a number. -/
theorem toNat_extractLsb' {n : Nat} (start len : Nat) (w : BitVec n) :
    (w.extractLsb' start len).toNat = w.toNat / 2 ^ start % 2 ^ len := by
  rw [BitVec.extractLsb'_toNat, Nat.shiftRight_eq_div_pow]

theorem fields_encodeRR (func : BitVec 5) (u : BitVec 7) (rt rb ra : Reg) :
    opcodeOf (encodeRR func u rt rb ra) = 0x02#5 ∧ funcOf (encodeRR func u rt rb ra) = func ∧
      field20 (encodeRR func u rt rb ra) = u ∧ field15 (encodeRR func u rt rb ra) = rt ∧
      field10 (encodeRR func u rt rb ra) = rb ∧ field5 (encodeRR func u rt rb ra) = ra := by
  refine ⟨?_, ?_, ?_, ?_, ?_, ?_⟩ <;> apply BitVec.eq_of_toNat_eq <;>
    simp only [opcodeOf, funcOf, field20, field15, field10, field5, encodeRR, toNat_append_add, toNat_extractLsb',
      BitVec.toNat_ofNat] <;> omega

theorem fields_encodeMV (func : BitVec 5) (ts : BitVec 3) (rt : Reg) (ss : BitVec 3) (ra : Reg) :
    opcodeOf (encodeMV func ts rt ss ra) = 0x02#5 ∧ funcOf (encodeMV func ts rt ss ra) = func ∧
      (encodeMV func ts rt ss ra).extractLsb' 23 4 = 0#4 ∧ set20 (encodeMV func ts rt ss ra) = ts ∧
      field20 (encodeMV func ts rt ss ra) = ts.setWidth 7 ∧ field15 (encodeMV func ts rt ss ra) = rt ∧
      (encodeMV func ts rt ss ra).extractLsb' 13 2 = 0#2 ∧ set10 (encodeMV func ts rt ss ra) = ss ∧
      field5 (encodeMV func ts rt ss ra) = ra := by
  refine ⟨?_, ?_, ?_, ?_, ?_, ?_, ?_, ?_, ?_⟩ <;> apply BitVec.eq_of_toNat_eq <;>
    simp only [opcodeOf, funcOf, set20, field20, field15, set10, field5, encodeMV, toNat_append_add, toNat_extractLsb',
      BitVec.toNat_ofNat, BitVec.toNat_setWidth] <;> omega

theorem fields_encodeRI (op : BitVec 5) (imm : BitVec 17) (rt ra : Reg) :
    opcodeOf (encodeRI op imm rt ra) = op ∧ immOf (encodeRI op imm rt ra) = imm ∧
      field10 (encodeRI op imm rt ra) = rt ∧ field5 (encodeRI op imm rt ra) = ra := by
  refine ⟨?_, ?_, ?_, ?_⟩ <;> apply BitVec.eq_of_toNat_eq <;>
    simp only [opcodeOf, immOf, field10, field5, encodeRI, toNat_append_add, toNat_extractLsb'] <;> omega

theorem fields_encodeRIL (op : BitVec 5) (x : BitVec 11) (rt ra : Reg) :
    opcodeOf (encodeRIL op x rt ra) = op ∧ xOf (encodeRIL op x rt ra) = x ∧
      field10 (encodeRIL op x rt ra) = rt ∧ field5 (encodeRIL op x rt ra) = ra := by
  refine ⟨?_, ?_, ?_, ?_⟩ <;> apply BitVec.eq_of_toNat_eq <;>
    simp only [opcodeOf, xOf, field10, field5, encodeRIL, toNat_append_add, toNat_extractLsb'] <;> omega

theorem fields_encodeJ (op : BitVec 5) (bits : BitVec 27) :
    opcodeOf (encodeJ op bits) = op ∧ field27 (encodeJ op bits) = bits := by
  refine ⟨?_, ?_⟩ <;> apply BitVec.eq_of_toNat_eq <;>
    simp only [opcodeOf, field27, encodeJ, toNat_append_add, toNat_extractLsb'] <;> omega

theorem fields_encodeGroup (func : BitVec 5) (rest : BitVec 22) :
    opcodeOf (encodeGroup func rest) = 0x02#5 ∧ funcOf (encodeGroup func rest) = func ∧
      field22 (encodeGroup func rest) = rest := by
  refine ⟨?_, ?_, ?_⟩ <;> apply BitVec.eq_of_toNat_eq <;>
    simp only [opcodeOf, funcOf, field22, encodeGroup, toNat_append_add, toNat_extractLsb', BitVec.toNat_ofNat] <;> omega

/-- The word of BRK (R116). -/
def encodeBRK (vector : VectorNo) : Word := 0#18 ++ vector ++ 0x00#5

theorem encode_brk (vector : VectorNo) : encode (.brk vector) = [encodeBRK vector] := rfl

theorem fields_encodeBRK (vector : VectorNo) :
    opcodeOf (encodeBRK vector) = 0x00#5 ∧ (encodeBRK vector).extractLsb' 5 9 = vector ∧
      (encodeBRK vector).extractLsb' 14 18 = 0#18 := by
  refine ⟨?_, ?_, ?_⟩ <;> apply BitVec.eq_of_toNat_eq <;>
    simp only [opcodeOf, encodeBRK, toNat_append_add, toNat_extractLsb', BitVec.toNat_ofNat] <;> omega

/-- The third word of format JF (R118). -/
theorem fields_thirdWord (ts : BitVec 3) (u : BitVec 2) (limit : BitVec 27) :
    (ts ++ u ++ limit).extractLsb' 29 3 = ts ∧ (ts ++ u ++ limit).extractLsb' 27 2 = u ∧
      (ts ++ u ++ limit).extractLsb' 0 27 = limit := by
  refine ⟨?_, ?_, ?_⟩ <;> apply BitVec.eq_of_toNat_eq <;>
    simp only [toNat_append_add, toNat_extractLsb'] <;> omega

/-- Format BR is format RI with the condition in the place of Rt and opcode 03h. -/
theorem encodeBR_eq_encodeRI (cond : BitVec 5) (imm : BitVec 17) (ra : Reg) :
    encodeBR cond imm ra = encodeRI 0x03#5 imm cond ra := rfl

/-- A short form holds the long-immediate pattern exactly where its immediate does (R126, R127). -/
theorem longPattern_encodeRI (op : BitVec 5) (imm : BitVec 17) (rt ra : Reg) :
    longPattern (encodeRI op imm rt ra) = !shortImm imm := by
  have upper : (encodeRI op imm rt ra).extractLsb' 26 6 = imm.extractLsb' 11 6 := by
    apply BitVec.eq_of_toNat_eq
    simp only [encodeRI, toNat_append_add, toNat_extractLsb']
    omega
  rw [longPattern, upper, shortImm, bne, Bool.not_not]

theorem longPattern_encodeRIL (op : BitVec 5) (x : BitVec 11) (rt ra : Reg) :
    longPattern (encodeRIL op x rt ra) = true := by
  have upper : (encodeRIL op x rt ra).extractLsb' 26 6 = 0x20#6 := by
    apply BitVec.eq_of_toNat_eq
    simp only [encodeRIL, toNat_append_add, toNat_extractLsb', BitVec.toNat_ofNat]
    omega
  rw [longPattern, upper]
  rfl

/-! ## A word is the word of its fields -/

theorem encodeRR_fields {w : Word} (op : opcodeOf w = 0x02#5) :
    encodeRR (funcOf w) (field20 w) (field15 w) (field10 w) (field5 w) = w := by
  rw [← BitVec.toNat_inj] at op ⊢
  simp only [opcodeOf, funcOf, field20, field15, field10, field5, encodeRR, toNat_append_add, toNat_extractLsb',
    BitVec.toNat_ofNat] at op ⊢
  omega

theorem encodeMV_fields {w : Word} (op : opcodeOf w = 0x02#5) (z23 : w.extractLsb' 23 4 = 0#4)
    (z13 : w.extractLsb' 13 2 = 0#2) : encodeMV (funcOf w) (set20 w) (field15 w) (set10 w) (field5 w) = w := by
  rw [← BitVec.toNat_inj] at op z23 z13 ⊢
  simp only [opcodeOf, funcOf, set20, field15, set10, field5, encodeMV, toNat_append_add, toNat_extractLsb',
    BitVec.toNat_ofNat] at op z23 z13 ⊢
  omega

/-- An all-zero field w[26:20] is the four unused bits and the set field of format MV, all zero (R122). -/
theorem field20_eq_zero_iff (w : Word) : field20 w = 0#7 ↔ w.extractLsb' 23 4 = 0#4 ∧ set20 w = 0#3 := by
  simp only [← BitVec.toNat_inj, field20, set20, toNat_extractLsb', BitVec.toNat_ofNat]
  omega

theorem encodeRI_fields (w : Word) : encodeRI (opcodeOf w) (immOf w) (field10 w) (field5 w) = w := by
  rw [← BitVec.toNat_inj]
  simp only [opcodeOf, immOf, field10, field5, encodeRI, toNat_append_add, toNat_extractLsb']
  omega

theorem encodeRIL_fields {w : Word} (long : longPattern w = true) :
    encodeRIL (opcodeOf w) (xOf w) (field10 w) (field5 w) = w := by
  rw [longPattern, beq_iff_eq, ← BitVec.toNat_inj] at long
  rw [← BitVec.toNat_inj]
  simp only [opcodeOf, xOf, field10, field5, encodeRIL, toNat_append_add, toNat_extractLsb', BitVec.toNat_ofNat] at long ⊢
  omega

theorem encodeJ_fields (w : Word) : encodeJ (opcodeOf w) (field27 w) = w := by
  rw [← BitVec.toNat_inj]
  simp only [opcodeOf, field27, encodeJ, toNat_append_add, toNat_extractLsb']
  omega

theorem encodeGroup_fields {w : Word} (op : opcodeOf w = 0x02#5) : encodeGroup (funcOf w) (field22 w) = w := by
  rw [← BitVec.toNat_inj] at op ⊢
  simp only [opcodeOf, funcOf, field22, encodeGroup, toNat_append_add, toNat_extractLsb', BitVec.toNat_ofNat] at op ⊢
  omega

theorem encodeBRK_fields {w : Word} (op : opcodeOf w = 0x00#5) (z14 : w.extractLsb' 14 18 = 0#18) :
    encodeBRK (w.extractLsb' 5 9) = w := by
  rw [← BitVec.toNat_inj] at op z14 ⊢
  simp only [opcodeOf, encodeBRK, toNat_append_add, toNat_extractLsb', BitVec.toNat_ofNat] at op z14 ⊢
  omega

theorem thirdWord_fields (w : Word) : w.extractLsb' 29 3 ++ w.extractLsb' 27 2 ++ w.extractLsb' 0 27 = w := by
  rw [← BitVec.toNat_inj]
  simp only [toNat_append_add, toNat_extractLsb']
  omega

/-- The immediate read from a word without the long-immediate pattern can stand in a short form (R127). -/
theorem shortImm_immOf (w : Word) : shortImm (immOf w) = !longPattern w := by
  rw [← Bool.not_not (shortImm _), ← longPattern_encodeRI (opcodeOf w) _ (field10 w) (field5 w), encodeRI_fields]

/-! ## Decoding the words of an instruction -/

/-- A branch word without the long-immediate pattern is decoded by its condition (R200). -/
theorem decode_encodeBR {cond : BitVec 5} {imm : BitVec 17} {ra : Reg} (short : shortImm imm = true) (w1 w2 : Word) :
    decode (encodeBR cond imm ra) w1 w2 = decodeCond cond imm ra := by
  rw [encodeBR_eq_encodeRI]
  simp [decode, decodeBcc, fields_encodeRI, longPattern_encodeRI, short]

/-- Decoding reads back every field of the word the formats build, whatever words follow. -/
theorem decode_encode (i : Instr) (w1 w2 : Word) (wf : i.wellFormed = true) :
    decode ((encode i).getD 0 0) ((encode i).getD 1 w1) ((encode i).getD 2 w2) = .ok i := by
  cases i
  case brk => simp [encode_brk, decode, requireZero, fields_encodeBRK]
  case bra | bsr | bhi | bls | bhs | blo | bne | beq | bvc | bvs | bpl | bmi | bge | blt | bgt | ble | bev | bod | bpo
      | brz | bnz | brp | brn | bxc | bxs | brc | brs =>
    exact decode_encodeBR wf _ _
  case ori imm | eori imm =>
    cases imm
    case short =>
      have short : shortImm _ = true := wf
      simp [encode, encodeImm, decode, decodeImm, fields_encodeRI, longPattern_encodeRI, short]
    case long => simp [encode, encodeImm, decode, decodeImm, fields_encodeRIL, longPattern_encodeRIL]
  case addi | cmpi | andi =>
    have short : shortImm _ = true := wf
    simp [encode, decode, requireZero, fields_encodeRI, longPattern_encodeRI, short]
  case bccLong | addiL | cmpiL | andiL =>
    simp [encode, decode, decodeBcc, requireZero, fields_encodeRIL, longPattern_encodeRIL]
  case nop | jmp | jsr | ld | ldar | st | stcr => simp [encode, decode, fields_encodeJ]
  case jmf => simp [encode, decode, fields_encodeJ, fields_thirdWord]
  case mov | seg => simp [encode, decode, decodeGroup, requireZero, fields_encodeMV]
  case add | sub | cmp | andr | orr | eor | nand | nor | enor | rti | mfspr =>
    simp [encode, decode, decodeGroup, requireZero, fields_encodeRR]
  case notr | neg | com | andc | orc | jmpr | jsrr | rts | shli | shri | shl | shr | asri | asr | mtspr | dbg | exs | exl =>
    simp [encode, decode, decodeGroup, fields_encodeGroup]

/-- Settles O12. -/
theorem decodeOfEncodeIsIdentity : Obligations.DecodeOfEncodeIsIdentity := decode_encode

/-! ## Encoding a decoded instruction -/

/-- The instruction was read from the words: it is well-formed, and they begin with its words. -/
def ReadFrom (w0 w1 w2 : Word) (i : Instr) : Prop :=
  i.wellFormed = true ∧ encode i = [w0, w1, w2].take i.words

theorem requireZero_eq_ok {isZero : Bool} {i j : Instr} : requireZero isZero i = .ok j ↔ isZero = true ∧ i = j := by
  cases isZero <;> simp [requireZero]

/-- One branch of the decoder's chain of tests is taken: this test holds, or the rest of the chain answers. -/
theorem ite_eq_cases {c : Prop} [Decidable c] {α : Type} {a b r : α} (h : (if c then a else b) = r) :
    (c ∧ a = r) ∨ (¬ c ∧ b = r) := by
  split at h
  · next hc => exact .inl ⟨hc, h⟩
  · next hc => exact .inr ⟨hc, h⟩

/-- The branch of any condition has the word of format BR. -/
theorem readFrom_of_decodeCond {cond : BitVec 5} {imm : BitVec 17} {ra : Reg} {i : Instr}
    (short : shortImm imm = true) (h : decodeCond cond imm ra = .ok i) (w1 w2 : Word) :
    ReadFrom (encodeBR cond imm ra) w1 w2 i := by
  unfold decodeCond at h
  iterate 27
    rcases ite_eq_cases h with ⟨rfl, h⟩ | ⟨-, h⟩
    · cases h
      exact ⟨short, rfl⟩
  cases h

/-- A branch word keeps every bit, with the long-immediate pattern and without it (R200). -/
theorem readFrom_of_decodeBcc {w : Word} {i : Instr} (op : opcodeOf w = 0x03#5) (h : decodeBcc w = .ok i)
    (w1 w2 : Word) : ReadFrom w w1 w2 i := by
  rcases ite_eq_cases h with ⟨long, h⟩ | ⟨short, h⟩
  · cases h
    have word := encodeRIL_fields long
    rw [op] at word
    exact ⟨rfl, congrArg (fun v => [v]) word⟩
  · have short : shortImm (immOf w) = true := by simp [shortImm_immOf, short]
    have word := encodeRI_fields w
    rw [op, ← encodeBR_eq_encodeRI] at word
    exact word ▸ readFrom_of_decodeCond short h w1 w2

/-- A word of the register group keeps every bit: as 22 bits, or in format RR, MV or SG with its unused fields zero. -/
theorem readFrom_of_decodeGroup {w : Word} {i : Instr} (op : opcodeOf w = 0x02#5) (h : decodeGroup w = .ok i)
    (w1 w2 : Word) : ReadFrom w w1 w2 i := by
  have group {func} (f : funcOf w = func) : [encodeGroup func (field22 w)] = [w] := by rw [← f, encodeGroup_fields op]
  have regs {func u rb ra} (f : funcOf w = func) (hu : field20 w = u) (hb : field10 w = rb) (ha : field5 w = ra) :
      [encodeRR func u (field15 w) rb ra] = [w] := by rw [← f, ← hu, ← hb, ← ha, encodeRR_fields op]
  have moves {func ts} (f : funcOf w = func) (z23 : w.extractLsb' 23 4 = 0#4) (z13 : w.extractLsb' 13 2 = 0#2)
      (ht : set20 w = ts) : [encodeMV func ts (field15 w) (set10 w) (field5 w)] = [w] := by
    rw [← f, ← ht, encodeMV_fields op z23 z13]
  unfold decodeGroup at h
  iterate 3
    rcases ite_eq_cases h with ⟨f, h⟩ | ⟨-, h⟩
    · cases h
      exact ⟨rfl, group f⟩
  rcases ite_eq_cases h with ⟨f, h⟩ | ⟨-, h⟩
  · obtain ⟨zeros, rfl⟩ := requireZero_eq_ok.1 h
    obtain ⟨z23, z13⟩ : w.extractLsb' 23 4 = 0#4 ∧ w.extractLsb' 13 2 = 0#2 := by simpa using zeros
    exact ⟨rfl, moves f z23 z13 rfl⟩
  rcases ite_eq_cases h with ⟨f, h⟩ | ⟨-, h⟩
  · obtain ⟨zero, rfl⟩ := requireZero_eq_ok.1 h
    exact ⟨rfl, regs f (eq_of_beq zero) rfl rfl⟩
  iterate 2
    rcases ite_eq_cases h with ⟨f, h⟩ | ⟨-, h⟩
    · cases h
      exact ⟨rfl, regs f rfl rfl rfl⟩
  rcases ite_eq_cases h with ⟨f, h⟩ | ⟨-, h⟩
  · obtain ⟨zero, rfl⟩ := requireZero_eq_ok.1 h
    exact ⟨rfl, regs f (eq_of_beq zero) rfl rfl⟩
  iterate 2
    rcases ite_eq_cases h with ⟨f, h⟩ | ⟨-, h⟩
    · cases h
      exact ⟨rfl, regs f rfl rfl rfl⟩
  rcases ite_eq_cases h with ⟨f, h⟩ | ⟨-, h⟩
  · cases h
    exact ⟨rfl, group f⟩
  iterate 3
    rcases ite_eq_cases h with ⟨f, h⟩ | ⟨-, h⟩
    · cases h
      exact ⟨rfl, regs f rfl rfl rfl⟩
  iterate 4
    rcases ite_eq_cases h with ⟨f, h⟩ | ⟨-, h⟩
    · cases h
      exact ⟨rfl, group f⟩
  rcases ite_eq_cases h with ⟨f, h⟩ | ⟨-, h⟩
  · obtain ⟨zeros, rfl⟩ := requireZero_eq_ok.1 h
    obtain ⟨z20, z10⟩ : field20 w = 0#7 ∧ field10 w = 0#5 := by simpa using zeros
    exact ⟨rfl, regs f z20 z10 rfl⟩
  iterate 7
    rcases ite_eq_cases h with ⟨f, h⟩ | ⟨-, h⟩
    · cases h
      exact ⟨rfl, group f⟩
  rcases ite_eq_cases h with ⟨f, h⟩ | ⟨-, h⟩
  · obtain ⟨zeros, rfl⟩ := requireZero_eq_ok.1 h
    obtain ⟨z10, z5⟩ : field10 w = 0#5 ∧ field5 w = 0#5 := by simpa using zeros
    exact ⟨rfl, regs f rfl z10 z5⟩
  rcases ite_eq_cases h with ⟨f, h⟩ | ⟨-, h⟩
  · cases h
    exact ⟨rfl, group f⟩
  rcases ite_eq_cases h with ⟨f, h⟩ | ⟨-, h⟩
  · obtain ⟨zeros, rfl⟩ := requireZero_eq_ok.1 h
    obtain ⟨z20, z13⟩ : field20 w = 0#7 ∧ w.extractLsb' 13 2 = 0#2 := by simpa using zeros
    obtain ⟨z23, ts⟩ := (field20_eq_zero_iff w).1 z20
    exact ⟨rfl, moves f z23 z13 ts⟩
  iterate 2
    rcases ite_eq_cases h with ⟨f, h⟩ | ⟨-, h⟩
    · cases h
      exact ⟨rfl, group f⟩
  cases h

/-- A decoded instruction is well-formed, and no bit of its words is dropped. -/
theorem readFrom_of_decode {w0 w1 w2 : Word} {i : Instr} (h : decode w0 w1 w2 = .ok i) : ReadFrom w0 w1 w2 i := by
  have major {op} (o : opcodeOf w0 = op) : [encodeJ op (field27 w0)] = [w0] := by rw [← o, encodeJ_fields]
  have short {op rt} (o : opcodeOf w0 = op) (r : field10 w0 = rt) :
      [encodeRI op (immOf w0) rt (field5 w0)] = [w0] := by rw [← o, ← r, encodeRI_fields]
  have long {op rt} (o : opcodeOf w0 = op) (r : field10 w0 = rt) (l : longPattern w0 = true) :
      [encodeRIL op (xOf w0) rt (field5 w0), w1] = [w0, w1] := by rw [← o, ← r, encodeRIL_fields l]
  have isShort (l : ¬ longPattern w0 = true) : shortImm (immOf w0) = true := by simp [shortImm_immOf, l]
  unfold decode at h
  rcases ite_eq_cases h with ⟨o, h⟩ | ⟨-, h⟩
  · obtain ⟨zero, rfl⟩ := requireZero_eq_ok.1 h
    exact ⟨rfl, congrArg (fun v => [v]) (encodeBRK_fields o (eq_of_beq zero))⟩
  rcases ite_eq_cases h with ⟨o, h⟩ | ⟨-, h⟩
  · cases h
    exact ⟨rfl, major o⟩
  rcases ite_eq_cases h with ⟨o, h⟩ | ⟨-, h⟩
  · exact readFrom_of_decodeGroup o h w1 w2
  rcases ite_eq_cases h with ⟨o, h⟩ | ⟨-, h⟩
  · exact readFrom_of_decodeBcc o h w1 w2
  rcases ite_eq_cases h with ⟨o, h⟩ | ⟨-, h⟩
  · rcases ite_eq_cases h with ⟨l, h⟩ | ⟨l, h⟩ <;> cases h
    · exact ⟨rfl, long o rfl l⟩
    · exact ⟨isShort l, short o rfl⟩
  rcases ite_eq_cases h with ⟨o, h⟩ | ⟨-, h⟩
  · obtain ⟨zero, rfl⟩ := requireZero_eq_ok.1 h
    split
    · next l => exact ⟨rfl, long o (eq_of_beq zero) l⟩
    · next l => exact ⟨isShort l, short o (eq_of_beq zero)⟩
  rcases ite_eq_cases h with ⟨o, h⟩ | ⟨-, h⟩
  · rcases ite_eq_cases h with ⟨l, h⟩ | ⟨l, h⟩ <;> cases h
    · exact ⟨rfl, long o rfl l⟩
    · exact ⟨isShort l, short o rfl⟩
  iterate 2
    rcases ite_eq_cases h with ⟨o, h⟩ | ⟨-, h⟩
    · cases h
      unfold decodeImm
      split
      · next l => exact ⟨rfl, long o rfl l⟩
      · next l => exact ⟨isShort l, short o rfl⟩
  iterate 2
    rcases ite_eq_cases h with ⟨o, h⟩ | ⟨-, h⟩
    · cases h
      exact ⟨rfl, major o⟩
  rcases ite_eq_cases h with ⟨o, h⟩ | ⟨-, h⟩
  · cases h
    refine ⟨rfl, ?_⟩
    have first : encodeJ 0x14#5 (field27 w0) = w0 := by rw [← o, encodeJ_fields]
    simp [encode, Instr.words, first, thirdWord_fields]
  iterate 4
    rcases ite_eq_cases h with ⟨o, h⟩ | ⟨-, h⟩
    · cases h
      exact ⟨rfl, major o⟩
  cases h

/-- Settles O13. -/
theorem encodeOfDecodeIsIdentity : Obligations.EncodeOfDecodeIsIdentity :=
  fun _ _ _ _ => readFrom_of_decode

/-! ## The length (R110, R126) -/

theorem one_le_words (i : Instr) : 1 ≤ i.words := by
  unfold Instr.words
  split <;> decide

/-- The first word read is the instruction's own. -/
theorem ReadFrom.firstWord {w0 w1 w2 : Word} {i : Instr} (h : ReadFrom w0 w1 w2 i) : (encode i).getD 0 0 = w0 := by
  obtain ⟨n, hn⟩ := Nat.exists_eq_add_of_le' (one_le_words i)
  rw [h.2, hn]
  rfl

/-- The length stands in the opcode and the long-immediate pattern of the first word (R110, R126). -/
theorem words_eq_of_firstWord (i : Instr) (wf : i.wellFormed = true) :
    i.words =
      if opcodeOf ((encode i).getD 0 0) = 0x14#5 then 3
      else if opcodeOf ((encode i).getD 0 0) ∈ [0x04#5, 0x06#5, 0x08#5, 0x09#5, 0x0A#5] ∧
        longPattern ((encode i).getD 0 0) = true then 2
      else 1 := by
  cases i
  case brk => simp [Instr.words, encode_brk, fields_encodeBRK]
  case bra | bsr | bhi | bls | bhs | blo | bne | beq | bvc | bvs | bpl | bmi | bge | blt | bgt | ble | bev | bod | bpo
      | brz | bnz | brp | brn | bxc | bxs | brc | brs =>
    simp [Instr.words, encode, encodeBR_eq_encodeRI, fields_encodeRI]
  case ori imm | eori imm =>
    cases imm
    case short =>
      have short : shortImm _ = true := wf
      simp [Instr.words, encode, encodeImm, fields_encodeRI, longPattern_encodeRI, short]
    case long => simp [Instr.words, encode, encodeImm, fields_encodeRIL, longPattern_encodeRIL]
  case addi | cmpi | andi =>
    have short : shortImm _ = true := wf
    simp [Instr.words, encode, fields_encodeRI, longPattern_encodeRI, short]
  case bccLong | addiL | cmpiL | andiL => simp [Instr.words, encode, fields_encodeRIL, longPattern_encodeRIL]
  case nop | jmp | jsr | jmf | ld | ldar | st | stcr => simp [Instr.words, encode, fields_encodeJ]
  case mov | seg => simp [Instr.words, encode, fields_encodeMV]
  case add | sub | cmp | andr | orr | eor | nand | nor | enor | rti | mfspr =>
    simp [Instr.words, encode, fields_encodeRR]
  case notr | neg | com | andc | orc | jmpr | jsrr | rts | shli | shri | shl | shr | asri | asr | mtspr | dbg | exs | exl =>
    simp [Instr.words, encode, fields_encodeGroup]

/-- Settles O16: the words read begin with the instruction's own, and those tell its length. -/
theorem lengthIsFoundFromFirstWord : Obligations.LengthIsFoundFromFirstWord := by
  intro w0 w1 w2 i h
  have read := readFrom_of_decode h
  have length := words_eq_of_firstWord i read.1
  rw [read.firstWord] at length
  simpa only [longPattern, opcodeOf, beq_iff_eq] using length

/-! ## Words written out and refused -/

/-- Settles O11: each of the nine evaluates. -/
theorem writtenOutWordsDecode : Obligations.WrittenOutWordsDecode :=
  ⟨rfl, rfl, rfl, rfl, rfl, rfl, rfl, rfl, rfl⟩

/-- Settles O37: the pattern is tested before the condition, and every bit of the word is kept. -/
theorem longPatternBranchIsRefused : Obligations.LongPatternBranchIsRefused := by
  intro s w0 w1 w2 op long
  have op : opcodeOf w0 = 0x03#5 := op
  have long : longPattern w0 = true := beq_iff_eq.2 long
  exact ⟨xOf w0, field10 w0, field5 w0, by simp [decode, decodeBcc, op, long], rfl⟩

end Sys2Proof.Machine
end

section
/-! PROOFS. The opcode table: its masks as fields of a word, that its rows and the decoder say the same, and what is refused
where no row applies. -/

namespace Sys2Proof.Machine

/-! ## Masks and fields -/

/-- The mask of a field of a word. -/
def fieldMask (start len : Nat) : Word := (BitVec.allOnes len).setWidth 32 <<< start

theorem getLsbD_fieldMask (start len j : Nat) (hj : j < 32) :
    (fieldMask start len).getLsbD j = (decide (start ≤ j) && decide (j - start < len)) := by
  rw [Bool.eq_iff_iff]
  simp [fieldMask, hj]

/-- Two words agree under the mask of a field exactly where they agree in the field. -/
theorem and_fieldMask_eq_iff (w p : Word) (start len : Nat) :
    w &&& fieldMask start len = p &&& fieldMask start len ↔ w.extractLsb' start len = p.extractLsb' start len := by
  constructor
  · intro h
    apply BitVec.eq_of_getLsbD_eq
    intro i hi
    by_cases inside : start + i < 32
    · have bit := congrArg (fun v => v.getLsbD (start + i)) h
      simpa [getLsbD_fieldMask _ _ _ inside, hi] using bit
    · simp [hi, BitVec.getLsbD_of_ge _ _ (Nat.not_lt.1 inside)]
  · intro h
    apply BitVec.eq_of_getLsbD_eq
    intro j hj
    by_cases inside : start ≤ j ∧ j - start < len
    · have bit := congrArg (fun v => v.getLsbD (j - start)) h
      have back : start + (j - start) = j := by omega
      simp [inside.2, back] at bit
      simp [bit]
    · simp only [BitVec.getLsbD_and, getLsbD_fieldMask _ _ _ hj, ← Bool.decide_and, inside, decide_false, Bool.and_false]

/-- Agreeing under two masks together is agreeing under each. -/
theorem and_or_eq_iff (w p m n : Word) :
    w &&& (m ||| n) = p &&& (m ||| n) ↔ w &&& m = p &&& m ∧ w &&& n = p &&& n := by
  constructor
  · intro h
    have under (k : Word) (hk : (m ||| n) &&& k = k) : w &&& k = p &&& k := by
      rw [← hk, ← BitVec.and_assoc, h, BitVec.and_assoc]
    refine ⟨under m ?_, under n ?_⟩ <;> ext i hi <;> simp <;> grind
  · rintro ⟨hm, hn⟩
    have dist (v : Word) : v &&& (m ||| n) = (v &&& m) ||| (v &&& n) := by ext i hi; simp; grind
    rw [dist, dist, hm, hn]

/-! ## The masks of the opcode table as fields (R137) -/

/-- The mask of several fields, each with its lowest bit and its length. -/
def maskOf (fields : List (Nat × Nat)) : Word := fields.foldr (fun f m => fieldMask f.1 f.2 ||| m) 0

theorem and_maskOf_eq_iff (w p : Word) (fields : List (Nat × Nat)) :
    w &&& maskOf fields = p &&& maskOf fields ↔ ∀ f ∈ fields, w.extractLsb' f.1 f.2 = p.extractLsb' f.1 f.2 := by
  induction fields with
  | nil => simp [maskOf]
  | cons f fields ih =>
    have head : maskOf (f :: fields) = fieldMask f.1 f.2 ||| maskOf fields := rfl
    rw [head, and_or_eq_iff, and_fieldMask_eq_iff, ih, List.forall_mem_cons]

section
variable {w p : Word}

/-- A word meets a pattern under a mask exactly where it has the pattern's fields. -/
theorem and_eq_iff_fields {mask : Word} (fields : List (Nat × Nat)) (hm : maskOf fields = mask)
    (hp : p &&& mask = p) : w &&& mask = p ↔ ∀ f ∈ fields, w.extractLsb' f.1 f.2 = p.extractLsb' f.1 f.2 := by
  rw [← and_maskOf_eq_iff, hm, hp]

theorem and_opcodeMask_eq_iff (hp : p &&& 0x0000001F#32 = p) :
    w &&& 0x0000001F#32 = p ↔ opcodeOf w = p.extractLsb' 0 5 := by
  simpa [opcodeOf] using and_eq_iff_fields [(0, 5)] (rfl : _ = 0x0000001F#32) hp

theorem and_brkMask_eq_iff (hp : p &&& 0xFFFFC01F#32 = p) :
    w &&& 0xFFFFC01F#32 = p ↔ w.extractLsb' 14 18 = p.extractLsb' 14 18 ∧ opcodeOf w = p.extractLsb' 0 5 := by
  simpa [opcodeOf] using and_eq_iff_fields [(14, 18), (0, 5)] (rfl : _ = 0xFFFFC01F#32) hp

theorem and_longMask_eq_iff (hp : p &&& 0xFC00001F#32 = p) (hl : p.extractLsb' 26 6 = 0x20#6) :
    w &&& 0xFC00001F#32 = p ↔ longPattern w = true ∧ opcodeOf w = p.extractLsb' 0 5 := by
  simpa [longPattern, opcodeOf, hl] using and_eq_iff_fields [(26, 6), (0, 5)] (rfl : _ = 0xFC00001F#32) hp

theorem and_branchMask_eq_iff (hp : p &&& 0x00007C1F#32 = p) :
    w &&& 0x00007C1F#32 = p ↔ field10 w = p.extractLsb' 10 5 ∧ opcodeOf w = p.extractLsb' 0 5 := by
  simpa [field10, opcodeOf] using and_eq_iff_fields [(10, 5), (0, 5)] (rfl : _ = 0x00007C1F#32) hp

theorem and_longCompareMask_eq_iff (hp : p &&& 0xFC007C1F#32 = p) (hl : p.extractLsb' 26 6 = 0x20#6) :
    w &&& 0xFC007C1F#32 = p ↔ longPattern w = true ∧ field10 w = p.extractLsb' 10 5 ∧ opcodeOf w = p.extractLsb' 0 5 := by
  simpa [longPattern, field10, opcodeOf, hl] using and_eq_iff_fields [(26, 6), (10, 5), (0, 5)] (rfl : _ = 0xFC007C1F#32) hp

theorem and_groupMask_eq_iff (hp : p &&& 0xF800001F#32 = p) :
    w &&& 0xF800001F#32 = p ↔ funcOf w = p.extractLsb' 27 5 ∧ opcodeOf w = p.extractLsb' 0 5 := by
  simpa [funcOf, opcodeOf] using and_eq_iff_fields [(27, 5), (0, 5)] (rfl : _ = 0xF800001F#32) hp

theorem and_mvMask_eq_iff (hp : p &&& 0xFF80601F#32 = p) :
    w &&& 0xFF80601F#32 = p ↔ funcOf w = p.extractLsb' 27 5 ∧ w.extractLsb' 23 4 = p.extractLsb' 23 4 ∧ w.extractLsb' 13 2 = p.extractLsb' 13 2 ∧ opcodeOf w = p.extractLsb' 0 5 := by
  simpa [funcOf, opcodeOf] using and_eq_iff_fields [(27, 5), (23, 4), (13, 2), (0, 5)] (rfl : _ = 0xFF80601F#32) hp

theorem and_rrMask_eq_iff (hp : p &&& 0xFFF0001F#32 = p) :
    w &&& 0xFFF0001F#32 = p ↔ funcOf w = p.extractLsb' 27 5 ∧ field20 w = p.extractLsb' 20 7 ∧ opcodeOf w = p.extractLsb' 0 5 := by
  simpa [funcOf, field20, opcodeOf] using and_eq_iff_fields [(27, 5), (20, 7), (0, 5)] (rfl : _ = 0xFFF0001F#32) hp

theorem and_rtMask_eq_iff (hp : p &&& 0xFFF07C1F#32 = p) :
    w &&& 0xFFF07C1F#32 = p ↔ funcOf w = p.extractLsb' 27 5 ∧ field20 w = p.extractLsb' 20 7 ∧ field10 w = p.extractLsb' 10 5 ∧ opcodeOf w = p.extractLsb' 0 5 := by
  simpa [funcOf, field20, field10, opcodeOf] using and_eq_iff_fields [(27, 5), (20, 7), (10, 5), (0, 5)] (rfl : _ = 0xFFF07C1F#32) hp

theorem and_sprMask_eq_iff (hp : p &&& 0xF8007FFF#32 = p) :
    w &&& 0xF8007FFF#32 = p ↔ funcOf w = p.extractLsb' 27 5 ∧ field10 w = p.extractLsb' 10 5 ∧ field5 w = p.extractLsb' 5 5 ∧ opcodeOf w = p.extractLsb' 0 5 := by
  simpa [funcOf, field10, field5, opcodeOf] using and_eq_iff_fields [(27, 5), (10, 5), (5, 5), (0, 5)] (rfl : _ = 0xF8007FFF#32) hp

theorem and_sgMask_eq_iff (hp : p &&& 0xFFF0601F#32 = p) :
    w &&& 0xFFF0601F#32 = p ↔ funcOf w = p.extractLsb' 27 5 ∧ field20 w = p.extractLsb' 20 7 ∧ w.extractLsb' 13 2 = p.extractLsb' 13 2 ∧ opcodeOf w = p.extractLsb' 0 5 := by
  simpa [funcOf, field20, opcodeOf] using and_eq_iff_fields [(27, 5), (20, 7), (13, 2), (0, 5)] (rfl : _ = 0xFFF0601F#32) hp

/-- The exclusion of a row is the long-immediate pattern (R126). -/
theorem and_patternMask_eq_iff : w &&& 0xFC000000#32 = 0x80000000#32 ↔ longPattern w = true := by
  simpa [longPattern] using and_eq_iff_fields [(26, 6)] (rfl : _ = 0xFC000000#32) (rfl : 0x80000000#32 &&& _ = _)

end

/-! ## Decoding and the opcode table -/

/-- A branch word without the long-immediate pattern is decoded by its condition (R200). -/
theorem decode_of_branch {w0 : Word} (op : opcodeOf w0 = 0x03#5) (short : longPattern w0 = false) (w1 w2 : Word) :
    decode w0 w1 w2 = decodeCond (field10 w0) (immOf w0) (field5 w0) := by
  simp [decode, decodeBcc, op, short]

/-- Rows 1 to 26: BRK, NOP, the long-immediate pattern, and the branches by their condition. -/
theorem decode_of_lowRow {row : OpcodeRow} (hrow : row ∈ opcodeRowsLow) {w0 : Word} (w1 w2 : Word)
    (h : row.applies w0 = true) : ∃ i, decode w0 w1 w2 = .ok i ∧ i.mnemonic = row.mnemonic := by
  fin_cases hrow
  all_goals
    simp [OpcodeRow.applies, and_opcodeMask_eq_iff, and_brkMask_eq_iff, and_longMask_eq_iff, and_branchMask_eq_iff,
      and_patternMask_eq_iff] at h
  · simp [decode, requireZero, h, Instr.mnemonic]
  · simp [decode, h, Instr.mnemonic]
  · simp [decode, decodeBcc, h, Instr.mnemonic]
  all_goals
    rw [decode_of_branch h.1.2 h.2, h.1.1]
    exact ⟨_, rfl, rfl⟩

/-- Rows 27 to 52: the last branches, the other major opcodes, and the first functions of the register group. -/
theorem decode_of_middleRow {row : OpcodeRow} (hrow : row ∈ opcodeRowsMiddle) {w0 : Word} (w1 w2 : Word)
    (h : row.applies w0 = true) : ∃ i, decode w0 w1 w2 = .ok i ∧ i.mnemonic = row.mnemonic := by
  fin_cases hrow
  all_goals
    simp [OpcodeRow.applies, and_opcodeMask_eq_iff, and_longMask_eq_iff, and_branchMask_eq_iff,
      and_longCompareMask_eq_iff, and_groupMask_eq_iff, and_mvMask_eq_iff, and_rrMask_eq_iff, and_patternMask_eq_iff] at h
  iterate 4
    · rw [decode_of_branch h.1.2 h.2, h.1.1]
      exact ⟨_, rfl, rfl⟩
  iterate 15
    · simp only [decode, h]
      exact ⟨_, rfl, rfl⟩
  all_goals
    simp only [decode, decodeGroup, h]
    exact ⟨_, rfl, rfl⟩

/-- Rows 53 to 76: the functions of the register group from AND on. -/
theorem decode_of_highRow {row : OpcodeRow} (hrow : row ∈ opcodeRowsHigh) {w0 : Word} (w1 w2 : Word)
    (h : row.applies w0 = true) : ∃ i, decode w0 w1 w2 = .ok i ∧ i.mnemonic = row.mnemonic := by
  fin_cases hrow
  all_goals
    simp [OpcodeRow.applies, and_groupMask_eq_iff, and_rrMask_eq_iff, and_rtMask_eq_iff, and_sprMask_eq_iff,
      and_sgMask_eq_iff] at h
    simp only [decode, decodeGroup, h]
    exact ⟨_, rfl, rfl⟩

/-- Where a row of the opcode table applies, the word decodes to an instruction with the row's mnemonic. -/
theorem decode_of_row_applies {row : OpcodeRow} (hrow : row ∈ opcodeTable) {w0 : Word} (w1 w2 : Word)
    (h : row.applies w0 = true) : ∃ i, decode w0 w1 w2 = .ok i ∧ i.mnemonic = row.mnemonic := by
  rcases List.mem_append.1 hrow with hrow | high
  · rcases List.mem_append.1 hrow with low | middle
    · exact decode_of_lowRow low w1 w2 h
    · exact decode_of_middleRow middle w1 w2 h
  · exact decode_of_highRow high w1 w2 h

/-- The rows of the opcode table stand in the order of the instructions. -/
theorem opcodeTable_getElem_ctorIdx (i : Instr) : (opcodeTable[i.ctorIdx]?).map (·.mnemonic) = some i.mnemonic := by
  cases i <;> rfl

/-- No two rows have one mnemonic. -/
theorem opcodeTable_mnemonics_nodup : (opcodeTable.map (·.mnemonic)).Nodup := by decide

/-- The row of an instruction's mnemonic is the one in its place. -/
theorem getElem_ctorIdx_of_mnemonic {row : OpcodeRow} (hrow : row ∈ opcodeTable) {i : Instr}
    (h : i.mnemonic = row.mnemonic) : opcodeTable[i.ctorIdx]? = some row := by
  obtain ⟨r, hr, hm⟩ := Option.map_eq_some_iff.1 (opcodeTable_getElem_ctorIdx i)
  have same : r = row :=
    List.inj_on_of_nodup_map opcodeTable_mnemonics_nodup (List.mem_of_getElem? hr) hrow (hm.trans h)
  rw [hr, same]

/-- The row in the place of an instruction applies to its first word. -/
theorem row_applies_firstWord (i : Instr) (wf : i.wellFormed = true) {row : OpcodeRow}
    (hrow : opcodeTable[i.ctorIdx]? = some row) : row.applies ((encode i).getD 0 0) = true := by
  cases i <;> cases hrow
  case brk => simp [OpcodeRow.applies, and_brkMask_eq_iff, encode_brk, fields_encodeBRK]
  case bra | bsr | bhi | bls | bhs | blo | bne | beq | bvc | bvs | bpl | bmi | bge | blt | bgt | ble | bev | bod | bpo
      | brz | bnz | brp | brn | bxc | bxs | brc | brs =>
    have short : shortImm _ = true := wf
    simp [OpcodeRow.applies, and_branchMask_eq_iff, and_patternMask_eq_iff, encode, encodeBR_eq_encodeRI,
      fields_encodeRI, longPattern_encodeRI, short]
  case ori imm | eori imm =>
    cases imm <;>
      simp [OpcodeRow.applies, and_opcodeMask_eq_iff, encode, encodeImm, fields_encodeRI, fields_encodeRIL]
  case addi | cmpi | andi =>
    have short : shortImm _ = true := wf
    simp [OpcodeRow.applies, and_opcodeMask_eq_iff, and_branchMask_eq_iff, and_patternMask_eq_iff, encode,
      fields_encodeRI, longPattern_encodeRI, short]
  case bccLong | addiL | cmpiL | andiL =>
    simp [OpcodeRow.applies, and_longMask_eq_iff, and_longCompareMask_eq_iff, encode, fields_encodeRIL,
      longPattern_encodeRIL]
  case nop | jmp | jsr | jmf | ld | ldar | st | stcr =>
    simp [OpcodeRow.applies, and_opcodeMask_eq_iff, encode, fields_encodeJ]
  case mov | seg => simp [OpcodeRow.applies, and_mvMask_eq_iff, and_sgMask_eq_iff, encode, fields_encodeMV]
  case add | sub | cmp | andr | orr | eor | nand | nor | enor | rti | mfspr =>
    simp [OpcodeRow.applies, and_groupMask_eq_iff, and_rrMask_eq_iff, and_rtMask_eq_iff, and_sprMask_eq_iff, encode,
      fields_encodeRR]
  case notr | neg | com | andc | orc | jmpr | jsrr | rts | shli | shri | shl | shr | asri | asr | mtspr | dbg | exs | exl =>
    simp [OpcodeRow.applies, and_groupMask_eq_iff, encode, fields_encodeGroup]

/-- The row with the mnemonic of a decoded instruction applies to the word it was decoded from. -/
theorem row_applies_of_decode {row : OpcodeRow} (hrow : row ∈ opcodeTable) {w0 w1 w2 : Word} {i : Instr}
    (h : decode w0 w1 w2 = .ok i) (hm : i.mnemonic = row.mnemonic) : row.applies w0 = true := by
  have read := readFrom_of_decode h
  rw [← read.firstWord]
  exact row_applies_firstWord i read.1 (getElem_ctorIdx_of_mnemonic hrow hm)

/-- Settles O14. -/
theorem decodeFollowsOpcodeTable : Obligations.DecodeFollowsOpcodeTable :=
  fun _ w1 w2 _ hrow => ⟨decode_of_row_applies hrow w1 w2, fun ⟨_, h, hm⟩ => row_applies_of_decode hrow h hm⟩

/-! ## Words to which no row applies (R129, R130) -/

/-- A documented instruction is refused for its unused fields alone (R130). -/
theorem requireZero_eq_error {isZero : Bool} {i : Instr} {e : Refusal} (h : requireZero isZero i = .error e) :
    e = .nonzeroUnusedField := by
  cases isZero <;> simp [requireZero] at h
  exact h.symm

/-- The condition numbers with no branch are those of the blank cells (R129). -/
theorem decodeCond_eq_error {cond : BitVec 5} {imm : BitVec 17} {ra : Reg} {e : Refusal}
    (h : decodeCond cond imm ra = .error e) :
    e = .unassignedEncoding ∧ [0x13, 0x14, 0x15, 0x16, 0x17].contains cond = true := by
  unfold decodeCond at h
  iterate 27
    replace h := ite_eq_cases h
    obtain ⟨-, h⟩ | ⟨_, h⟩ := h
    · cases h
  cases h
  have blank : ∀ c : BitVec 5, c ∉ [0x00#5, 0x01#5, 0x02#5, 0x03#5, 0x04#5, 0x05#5, 0x06#5, 0x07#5, 0x08#5, 0x09#5,
      0x0A#5, 0x0B#5, 0x0C#5, 0x0D#5, 0x0E#5, 0x0F#5, 0x10#5, 0x11#5, 0x12#5, 0x18#5, 0x19#5, 0x1A#5, 0x1B#5, 0x1C#5,
      0x1D#5, 0x1E#5, 0x1F#5] → [0x13, 0x14, 0x15, 0x16, 0x17].contains c = true := by decide
  exact ⟨rfl, blank cond (by simp [*])⟩

/-- Function 07h is the blank cell of the register group; its other refusals are for unused fields (R129, R130). -/
theorem decodeGroup_eq_error {w : Word} {e : Refusal} (h : decodeGroup w = .error e) :
    e = if funcOf w = 0x07#5 then .unassignedEncoding else .nonzeroUnusedField := by
  have unused {func i z} (f : funcOf w = func) (other : func ≠ 0x07#5) (h : requireZero z i = .error e) :
      e = if funcOf w = 0x07#5 then .unassignedEncoding else .nonzeroUnusedField := by
    rw [requireZero_eq_error h, f, if_neg other]
  unfold decodeGroup at h
  iterate 3
    replace h := ite_eq_cases h
    obtain ⟨-, h⟩ | ⟨_, h⟩ := h
    · cases h
  iterate 2
    replace h := ite_eq_cases h
    obtain ⟨f, h⟩ | ⟨_, h⟩ := h
    · exact unused f (by decide) h
  iterate 2
    replace h := ite_eq_cases h
    obtain ⟨-, h⟩ | ⟨_, h⟩ := h
    · cases h
  replace h := ite_eq_cases h
  obtain ⟨f, h⟩ | ⟨_, h⟩ := h
  · exact unused f (by decide) h
  iterate 10
    replace h := ite_eq_cases h
    obtain ⟨-, h⟩ | ⟨_, h⟩ := h
    · cases h
  replace h := ite_eq_cases h
  obtain ⟨f, h⟩ | ⟨_, h⟩ := h
  · exact unused f (by decide) h
  iterate 7
    replace h := ite_eq_cases h
    obtain ⟨-, h⟩ | ⟨_, h⟩ := h
    · cases h
  replace h := ite_eq_cases h
  obtain ⟨f, h⟩ | ⟨_, h⟩ := h
  · exact unused f (by decide) h
  replace h := ite_eq_cases h
  obtain ⟨-, h⟩ | ⟨_, h⟩ := h
  · cases h
  replace h := ite_eq_cases h
  obtain ⟨f, h⟩ | ⟨_, h⟩ := h
  · exact unused f (by decide) h
  iterate 2
    replace h := ite_eq_cases h
    obtain ⟨-, h⟩ | ⟨_, h⟩ := h
    · cases h
  cases h
  have blank : ∀ f : BitVec 5, f ∉ [0x00#5, 0x01#5, 0x02#5, 0x03#5, 0x04#5, 0x05#5, 0x06#5, 0x08#5, 0x09#5, 0x0A#5,
      0x0B#5, 0x0C#5, 0x0D#5, 0x0E#5, 0x0F#5, 0x10#5, 0x11#5, 0x12#5, 0x13#5, 0x14#5, 0x15#5, 0x16#5, 0x17#5, 0x18#5,
      0x19#5, 0x1A#5, 0x1B#5, 0x1C#5, 0x1D#5, 0x1E#5, 0x1F#5] → f = 0x07#5 := by decide
  refine (if_pos (blank (funcOf w) ?_)).symm
  simp only [List.mem_cons, List.not_mem_nil, or_false, not_or]
  and_intros <;> assumption

/-- A refused word names a blank cell, or is a documented instruction with a nonzero unused field. -/
theorem decode_eq_error {w0 w1 w2 : Word} {e : Refusal} (h : decode w0 w1 w2 = .error e) :
    e = if blankCell w0 = true then .unassignedEncoding else .nonzeroUnusedField := by
  unfold decode at h
  replace h := ite_eq_cases h
  obtain ⟨o, h⟩ | ⟨_, h⟩ := h
  · simp [requireZero_eq_error h, blankCell, o]
  replace h := ite_eq_cases h
  obtain ⟨-, h⟩ | ⟨_, h⟩ := h
  · cases h
  replace h := ite_eq_cases h
  obtain ⟨o, h⟩ | ⟨_, h⟩ := h
  · simpa [blankCell, o] using decodeGroup_eq_error h
  replace h := ite_eq_cases h
  obtain ⟨o, h⟩ | ⟨_, h⟩ := h
  · replace h := ite_eq_cases h
    obtain ⟨-, h⟩ | ⟨short, h⟩ := h
    · cases h
    · obtain ⟨rfl, blank⟩ := decodeCond_eq_error h
      have cell : blankCell w0 = true := by
        rw [blankCell, o, blank]
        simp [short]
      rw [if_pos cell]
  replace h := ite_eq_cases h
  obtain ⟨-, h⟩ | ⟨_, h⟩ := h
  · split at h <;> cases h
  replace h := ite_eq_cases h
  obtain ⟨o, h⟩ | ⟨_, h⟩ := h
  · simp [requireZero_eq_error h, blankCell, o]
  replace h := ite_eq_cases h
  obtain ⟨-, h⟩ | ⟨_, h⟩ := h
  · split at h <;> cases h
  iterate 9
    replace h := ite_eq_cases h
    obtain ⟨-, h⟩ | ⟨_, h⟩ := h
    · cases h
  cases h
  have blank : ∀ op : BitVec 5, op ∉ [0x00#5, 0x01#5, 0x02#5, 0x03#5, 0x04#5, 0x06#5, 0x08#5, 0x09#5, 0x0A#5, 0x10#5,
      0x11#5, 0x14#5, 0x1C#5, 0x1D#5, 0x1E#5, 0x1F#5] → [0x05, 0x07, 0x0B, 0x0C, 0x0D, 0x0E, 0x0F, 0x12, 0x13, 0x15,
      0x16, 0x17, 0x18, 0x19, 0x1A, 0x1B].contains op = true := by decide
  have cell : blankCell w0 = true := by
    rw [blankCell, blank (opcodeOf w0) (by simp [*])]
    rfl
  rw [if_pos cell]

/-- Every instruction has its row in the table. -/
theorem exists_row_of_decode {w0 w1 w2 : Word} {i : Instr} (h : decode w0 w1 w2 = .ok i) :
    ∃ row ∈ opcodeTable, row.applies w0 = true := by
  obtain ⟨row, hr, hm⟩ := Option.map_eq_some_iff.1 (opcodeTable_getElem_ctorIdx i)
  have mem := List.mem_of_getElem? hr
  exact ⟨row, mem, row_applies_of_decode mem h hm.symm⟩

/-- Settles O15. -/
theorem wordsOutsideTheTableAreRefused : Obligations.WordsOutsideTheTableAreRefused := by
  intro w0 w1 w2 none
  cases h : decode w0 w1 w2 with
  | ok i =>
    obtain ⟨row, mem, applies⟩ := exists_row_of_decode h
    simp [none row mem] at applies
  | error e => rw [decode_eq_error h]

end Sys2Proof.Machine
end

section
/-! PROOFS. Trap entry: the state BrkSequence leaves, read field by field, and from it BRK, the exceptions, interrupts,
the fetch bounds check and the sequences that fail. -/

namespace Sys2Proof.Machine

/-! ## The state after a trap entry -/

/-- The state BrkSequence leaves when its frame occupies `f` (R240). -/
def trapEntry (vector : VectorNo) (savedPc : Word) (f : FrameAddrs) (s : State) : State :=
  ((((trapState s).writeFrame f (s.mswImage s.mode (Config.mswUnused s.draws)) savedPc (s.bank s.mode).cs
    (s.bank s.mode).csl).setSp .system ((s.bank .system).sp - 4)).setCode .system s.vcs 2047).setPc
      (vector.setWidth 32 * 4)

/-- BrkSequence completes exactly where the frame below ssp passes, and leaves `trapEntry`. -/
theorem brkSequence_eq_next_iff {vector : VectorNo} {savedPc : Word} {s t : State} :
    brkSequence vector savedPc s = .next t ↔ ∃ f, s.PushesFrame f ∧ t = trapEntry vector savedPc f s := by
  constructor
  · intro h
    obtain ⟨f, frame, ht⟩ := brkSequence_next h
    exact ⟨f, (trapFrame_iff (trapState_mode s)).1 frame, ht⟩
  · rintro ⟨f, frame, rfl⟩
    exact brkSequence_of_pushesFrame vector savedPc frame

section
variable (vector : VectorNo) (savedPc : Word) (f : FrameAddrs) (s : State)

@[simp] theorem trapEntry_mode : (trapEntry vector savedPc f s).mode = .system := rfl
@[simp] theorem trapEntry_im : (trapEntry vector savedPc f s).im = (s.im || Config.brkSetsIm) := rfl
@[simp] theorem trapEntry_rf : (trapEntry vector savedPc f s).rf = s.rf := rfl
@[simp] theorem trapEntry_pc : (trapEntry vector savedPc f s).pc = vector.setWidth 32 * 4 := rfl
@[simp] theorem trapEntry_vcs : (trapEntry vector savedPc f s).vcs = s.vcs := rfl
@[simp] theorem trapEntry_resetPending : (trapEntry vector savedPc f s).resetPending = s.resetPending := rfl
@[simp] theorem trapEntry_faultPc : (trapEntry vector savedPc f s).faultPc = s.faultPc := rfl
@[simp] theorem trapEntry_faultCs : (trapEntry vector savedPc f s).faultCs = s.faultCs := rfl
@[simp] theorem trapEntry_faultAddr : (trapEntry vector savedPc f s).faultAddr = s.faultAddr := rfl
@[simp] theorem trapEntry_faultSeg : (trapEntry vector savedPc f s).faultSeg = s.faultSeg := rfl

/-- A trap entry moves ssp and loads the code segment of the system set; no other register set changes. -/
theorem trapEntry_bank (m : Mode) :
    (trapEntry vector savedPc f s).bank m =
      if m = .system then { s.bank .system with sp := (s.bank .system).sp - 4, cs := s.vcs, csl := 2047 }
      else s.bank m := by
  by_cases h : m = .system <;> simp [trapEntry, h]

@[simp] theorem trapEntry_flags (m : Mode) : ((trapEntry vector savedPc f s).bank m).flags = (s.bank m).flags := by
  by_cases h : m = .system <;> simp [trapEntry_bank, h]

theorem trapEntry_reg (m : Mode) (r : Reg) :
    (trapEntry vector savedPc f s).reg m r =
      if m = .system ∧ r = 31#5 then s.reg .system 31#5 - 4 else s.reg m r := by
  simp only [trapEntry, State.setPc_reg, State.setCode_reg, State.setSp_reg, State.writeFrame_reg, trapState_reg]
  rfl

theorem trapEntry_sameSegments :
    SameSegments (fun m k => m = .system ∧ (k = .cs ∨ k = .csl)) s (trapEntry vector savedPc f s) := by
  intro m k sp code
  by_cases h : m = .system
  · subst h
    simp only [true_and, not_or] at code
    cases k <;> simp_all [trapEntry_bank, Bank.special]
  · simp [trapEntry_bank, h]

/-- Memory after a trap entry: the frame, and every other location as before. -/
theorem trapEntry_readWord (a : LinAddr) :
    (trapEntry vector savedPc f s).readWord a =
      if a = f.msw then s.mswImage s.mode (Config.mswUnused s.draws) else if a = f.pc then savedPc
      else if a = f.cs then (s.bank s.mode).cs else if a = f.csl then (s.bank s.mode).csl else s.readWord a := by
  simp [trapEntry, State.writeFrame_readWord]

theorem trapEntry_sameMemory : SameMemory f.Holds s (trapEntry vector savedPc f s) := by
  intro a outside
  simp only [FrameAddrs.Holds, not_or] at outside
  obtain ⟨msw, pc, cs, csl⟩ := outside
  simp [trapEntry_readWord, msw, pc, cs, csl]

theorem trapEntry_sameFaultRegs : SameFaultRegs s (trapEntry vector savedPc f s) := ⟨rfl, rfl, rfl, rfl⟩

theorem trapEntry_inv (h : s.Inv) : (trapEntry vector savedPc f s).Inv := by
  have pushed : ((trapState s).writeFrame f (s.mswImage s.mode (Config.mswUnused s.draws)) savedPc (s.bank s.mode).cs
      (s.bank s.mode).csl).Inv := State.writeFrame_inv _ _ _ _ _ _ (State.inv_of_mem h (trapState_mem s))
  exact State.inv_of_mem pushed rfl

end

/-- The entry of a vector as a number: four words for each vector (R240). -/
theorem vectorEntry_toNat (vector : VectorNo) : ((vector.setWidth 32 : Word) * 4).toNat = vector.toNat * 4 := by
  have := vector.isLt
  simp
  omega

/-- A trap entry leaves what the rule says. -/
theorem trapEntry_trapTaken (vector : VectorNo) (savedPc : Word) {f : FrameAddrs} {s : State} (h : s.PushesFrame f) :
    TrapTaken vector savedPc f s (trapEntry vector savedPc f s) := by
  obtain ⟨msw_pc, msw_cs, msw_csl, pc_cs, pc_csl, cs_csl⟩ := h.distinct
  refine ⟨?_, ?_, ?_, ?_, trapEntry_sameMemory vector savedPc f s, rfl, ?_, ?_, ?_, vectorEntry_toNat vector, rfl, ?_, ?_,
    fun m _ => trapEntry_flags .., trapEntry_sameSegments vector savedPc f s, rfl, rfl⟩
  · rw [trapEntry_readWord, if_pos rfl]
    exact mswWord_isMswImage _ _ _ _ _
  · simp [trapEntry_readWord, msw_pc.symm]
  · simp [trapEntry_readWord, msw_cs.symm, pc_cs.symm]
  · simp [trapEntry_readWord, msw_csl.symm, pc_csl.symm, cs_csl.symm]
  · simp [trapEntry_reg]
  · simp [trapEntry_bank]
  · simp [trapEntry_bank]
  · exact (by decide : ∀ a b : Bool, (a || b) = a ∨ (a || b) = true) s.im Config.brkSetsIm
  · intro m r other
    rw [trapEntry_reg, if_neg other]

/-- Where a frame fits, BrkSequence takes the trap and touches no fault register. -/
theorem brkSequence_trapTaken (vector : VectorNo) (savedPc : Word) {f : FrameAddrs} {s : State} (h : s.PushesFrame f) :
    ∃ t, brkSequence vector savedPc s = .next t ∧ TrapTaken vector savedPc f s t ∧ SameFaultRegs s t :=
  ⟨_, brkSequence_eq_next_iff.2 ⟨f, h, rfl⟩, trapEntry_trapTaken vector savedPc h, trapEntry_sameFaultRegs ..⟩

/-- Settles O40. -/
theorem brkTakesTheTrap : Obligations.BrkTakesTheTrap :=
  fun s vector _ h => brkSequence_trapTaken vector (s.pc + 1) h

/-! ## Exceptions -/

/-- Recording a fault moves no frame. -/
theorem recordFault_pushesFrame {e : Exn} {s : State} {f : FrameAddrs} :
    (s.recordFault e).PushesFrame f ↔ s.PushesFrame f := by cases e <;> exact Iff.rfl

/-- A trap taken after recording a fault is one taken from the state before. -/
theorem recordFault_trapTaken {e : Exn} {vector : VectorNo} {savedPc : Word} {f : FrameAddrs} {s t : State} :
    TrapTaken vector savedPc f (s.recordFault e) t ↔ TrapTaken vector savedPc f s t := by cases e <;> exact Iff.rfl

/-- Where a frame fits, an exception is taken and the fault registers are those recorded. -/
theorem takeException_exceptionTaken (e : Exn) {f : FrameAddrs} {s : State} (h : s.PushesFrame f) :
    ∃ t, takeException e s = .next t ∧ ExceptionTaken e.vector f s t ∧ t.faultAddr = (s.recordFault e).faultAddr ∧
      t.faultSeg = (s.recordFault e).faultSeg := by
  obtain ⟨t, next, trap, pc, cs, addr, seg⟩ := brkSequence_trapTaken e.vector s.pc (recordFault_pushesFrame.2 h)
  exact ⟨t, next, ⟨recordFault_trapTaken.1 trap, pc.trans (recordFault_faultPc e s),
    cs.trans (recordFault_faultCs e s)⟩, addr, seg⟩

/-- Settles O42: Priv and Bounds(fetch) record no address, the data faults record theirs. -/
theorem exceptionEntryRecordsFault : Obligations.ExceptionEntryRecordsFault :=
  fun _ off seg _ h => ⟨takeException_exceptionTaken .priv h, takeException_exceptionTaken .boundsFetch h,
    takeException_exceptionTaken (.boundsData off seg) h, takeException_exceptionTaken (.stackFault off seg) h⟩

/-- In a user mode a privileged instruction takes Priv whatever its body. -/
theorem privileged_of_user {body : Result} {s : State} (h : s.mode = .user1 ∨ s.mode = .user2) :
    privileged body s = takeException .priv s := by
  rw [privileged_eq, if_pos ((Mode.isUser_iff _).2 h)]

/-- Outside the user modes a privileged instruction is its body. -/
theorem privileged_of_supervisor {body : Result} {s : State} (h : s.Supervisor) : privileged body s = body := by
  rcases h with h | h <;> simp [privileged_eq, h, Mode.isUser]

/-- Settles O41: each of the three is its body behind the privilege check. -/
theorem privilegedInstructionsTrapInUserModes : Obligations.PrivilegedInstructionsTrapInUserModes := by
  intro s i f user frame form
  have trap : exec i s = takeException .priv s := by
    rcases form with ⟨_, _, _, _, _, rfl⟩ | ⟨_, _, rfl⟩ | ⟨_, _, rfl⟩ <;> exact privileged_of_user user
  rw [trap]
  exact takeException_exceptionTaken .priv frame

/-! ## Interrupts and the fetch bounds check at the step (R305, R308) -/

/-- Past the reset BRK a step polls, and takes the interrupt or runs the instruction at pc. -/
theorem step_of_not_resetPending {s : State} (h : s.resetPending = false) :
    step s =
      if s.im = true then runInstruction s
      else
        match Config.interruptRequest s.draws with
        | none => runInstruction s.tick
        | some v => takeInterrupt v s.tick := by
  cases im : s.im
  · cases request : Config.interruptRequest s.draws <;> simp [step, h, pollInterrupt_eq, im, request]
  · simp [step, h, pollInterrupt_eq, im]

/-- An interrupt delivered where a frame fits is taken with the pc of the instruction not yet executed (R303). -/
theorem takeInterrupt_trapTaken (vector : VectorNo) {f : FrameAddrs} {s : State} (h : s.PushesFrame f) :
    ∃ t, takeInterrupt vector s.tick = .next t ∧ TrapTaken vector s.pc f s t ∧ SameFaultRegs s t :=
  @brkSequence_trapTaken vector s.pc f s.tick h

/-- Settles O44. -/
theorem interruptForcesBrkUnlessMasked : Obligations.InterruptForcesBrkUnlessMasked := by
  intro s ready
  rw [step_of_not_resetPending ready]
  refine ⟨fun im => by rw [if_pos im], fun f im frame => ?_⟩
  rw [im]
  cases Config.interruptRequest s.draws with
  | none => rfl
  | some v => exact takeInterrupt_trapTaken v frame

/-- Beyond the code limit the fetch bounds exception is taken, before anything is fetched (R76). -/
theorem runInstruction_of_pc_beyond {s : State} (h : (s.bank s.mode).csl.toNat < s.pc.toNat) :
    runInstruction s = takeException .boundsFetch s := by
  have beyond : s.pcOutOfBounds = true := decide_eq_true (BitVec.lt_def.2 h)
  rw [runInstruction, if_pos beyond]

/-- Settles O43. -/
theorem fetchBeyondCodeLimitTraps : Obligations.FetchBeyondCodeLimitTraps := by
  intro s f ready beyond frame
  rw [step_of_not_resetPending ready]
  cases s.im
  · cases Config.interruptRequest s.draws with
    | none =>
      show ∃ t, runInstruction s.tick = .next t ∧ _
      rw [@runInstruction_of_pc_beyond s.tick beyond]
      exact @takeException_exceptionTaken .boundsFetch f s.tick frame
    | some v => exact takeInterrupt_trapTaken v frame
  · show ∃ t, runInstruction s = .next t ∧ _
    rw [runInstruction_of_pc_beyond beyond]
    exact takeException_exceptionTaken .boundsFetch frame

/-! ## Sequences that fail (R311) -/

/-- No row of R72 has a reserved selector. -/
theorem selectorRows_not_reserved {row : Nat × (Bank → Word)} (h : row ∈ selectorRows) : row.1 ≠ 5 ∧ row.1 ≠ 6 := by
  revert row
  simp [selectorRows]

/-- A failing push or pop is the access of no location. -/
theorem State.StackAccessFails.not_stackWordAt {s : State} {ea : Word} (h : s.StackAccessFails ea) (a : LinAddr) :
    ¬ s.StackWordAt ea a := by
  rintro ⟨row, mem, selector, low, high, -⟩
  have named := selectorRows_not_reserved mem
  unfold State.StackAccessFails at h
  omega

/-- A frame with a failing access does not pass. -/
theorem trapFrame_eq_none {s : State} (hm : s.mode = .system) {ea k : Word} (hk : k ∈ [0#32, 1#32, 2#32, 3#32])
    (h : s.StackAccessFails (ea + k)) : trapFrame ea s = none := by
  rw [Option.eq_none_iff_forall_ne_some]
  intro f frame
  obtain ⟨msw, pc, cs, csl⟩ := (trapFrame_iff hm).1 frame
  simp only [List.mem_cons, List.not_mem_nil, or_false] at hk
  rcases hk with rfl | rfl | rfl | rfl
  · exact (h.not_stackWordAt _) (by simpa using msw)
  · exact h.not_stackWordAt _ pc
  · exact h.not_stackWordAt _ cs
  · exact h.not_stackWordAt _ csl

/-- A push `k` words below ssp is one of the four of the frame four words below it. -/
theorem brkSequence_of_fails (vector : VectorNo) (savedPc : Word) {s : State} {k : Word}
    (hk : k ∈ [1#32, 2#32, 3#32, 4#32]) (h : s.StackAccessFails (s.reg .system 31#5 - k)) :
    brkSequence vector savedPc s = .fault .faultInTrapSequence := by
  have place : ∃ j ∈ [0#32, 1#32, 2#32, 3#32], s.reg .system 31#5 - k = (s.bank .system).sp - 4 + j := by
    have offset : 4 - k ∈ [0#32, 1#32, 2#32, 3#32] := by fin_cases hk <;> decide
    refine ⟨4 - k, offset, ?_⟩
    simp only [State.reg, Bank.reg_stackPointer]
    generalize (s.bank .system).sp = sp
    bv_omega
  obtain ⟨j, hj, at_j⟩ := place
  rw [at_j] at h
  rw [brkSequence_eq, trapFrame_eq_none (trapState_mode s) hj h]

/-- Settles O45: no frame passes with a failing access, so the sequence has none to push or pop. -/
theorem failingTrapSequenceIsStuck : Obligations.FailingTrapSequenceIsStuck := by
  refine ⟨fun s vector k hk h => brkSequence_of_fails vector (s.pc + 1) hk h, fun s rt ra hm k hk h => ?_⟩
  have none : trapFrame (s.bank .system).sp s = none := trapFrame_eq_none hm hk (by simpa [State.reg] using h)
  have body : exec (.rti rt ra) s = _ := privileged_of_supervisor (.inl hm)
  rw [body, if_neg (by simp [hm]), none]

end Sys2Proof.Machine
end

section
/-! PROOFS. What every step keeps: a step takes a trap or runs an instruction that takes none, and each invariant is read
from these two. -/

namespace Sys2Proof.Machine

/-! ## A step takes a trap or runs an instruction -/

/-- What a trap entry reads of a state: all but pc, the fault registers and the model's own two fields. -/
def SameMachine (s u : State) : Prop :=
  u.banks = s.banks ∧ u.mode = s.mode ∧ u.im = s.im ∧ u.rf = s.rf ∧ u.vcs = s.vcs ∧ u.mem = s.mem

/-- A trap is entered from `s`, whatever its vector and saved pc, and whatever fault it recorded first. -/
def EntersTrap (s t : State) : Prop :=
  ∃ vector savedPc u f, SameMachine s u ∧ s.PushesFrame f ∧ t = trapEntry vector savedPc f u

theorem SameMachine.bank {s u : State} (h : SameMachine s u) (m : Mode) : u.bank m = s.bank m :=
  congrArg (fun b => PerMode.get b m) h.1

theorem SameMachine.reg {s u : State} (h : SameMachine s u) (m : Mode) (r : Reg) : u.reg m r = s.reg m r :=
  congrArg (fun b => Bank.reg b r) (h.bank m)

theorem SameMachine.readWord {s u : State} (h : SameMachine s u) (a : LinAddr) : u.readWord a = s.readWord a := by
  obtain ⟨-, -, -, -, -, mem⟩ := h
  simp only [State.readWord, mem]

theorem SameMachine.pushesFrame {s u : State} (h : SameMachine s u) {f : FrameAddrs} :
    u.PushesFrame f ↔ s.PushesFrame f := by
  simp only [State.PushesFrame, State.FrameAt, State.StackWordAt, h.bank, h.reg]

theorem sameMachine_refl (s : State) : SameMachine s s := ⟨rfl, rfl, rfl, rfl, rfl, rfl⟩

theorem sameMachine_tick (s : State) : SameMachine s s.tick := ⟨rfl, rfl, rfl, rfl, rfl, rfl⟩

theorem sameMachine_endReset (s : State) : SameMachine s s.endReset := ⟨rfl, rfl, rfl, rfl, rfl, rfl⟩

/-- The state after a poll, whether or not it drew. -/
theorem sameMachine_of_polled {s u : State} (h : u = s ∨ u = s.tick) : SameMachine s u := by
  rcases h with rfl | rfl
  · exact sameMachine_refl _
  · exact sameMachine_tick s

theorem decodeNext_of_polled {s u : State} (h : u = s ∨ u = s.tick) : u.decodeNext = s.decodeNext := by
  rcases h with rfl | rfl <;> rfl

theorem sameMachine_recordFault (e : Exn) (s : State) : SameMachine s (s.recordFault e) := by
  cases e <;> exact ⟨rfl, rfl, rfl, rfl, rfl, rfl⟩

theorem SameMachine.trans {s u v : State} (h : SameMachine s u) (k : SameMachine u v) : SameMachine s v := by
  obtain ⟨h1, h2, h3, h4, h5, h6⟩ := h
  obtain ⟨k1, k2, k3, k4, k5, k6⟩ := k
  exact ⟨k1.trans h1, k2.trans h2, k3.trans h3, k4.trans h4, k5.trans h5, k6.trans h6⟩

/-- BrkSequence that answers a next state, from a state that differs in no more than a trap may record. -/
theorem EntersTrap.of_brkSequence {s u t : State} {vector : VectorNo} {savedPc : Word} (same : SameMachine s u)
    (h : brkSequence vector savedPc u = .next t) : EntersTrap s t := by
  obtain ⟨f, frame, ht⟩ := brkSequence_eq_next_iff.1 h
  exact ⟨vector, savedPc, u, f, same, same.pushesFrame.1 frame, ht⟩

theorem EntersTrap.of_takeException {s u t : State} {e : Exn} (same : SameMachine s u)
    (h : takeException e u = .next t) : EntersTrap s t :=
  .of_brkSequence (same.trans (sameMachine_recordFault e u)) h

theorem EntersTrap.of_sameMachine {s u t : State} (h : EntersTrap u t) (same : SameMachine s u) : EntersTrap s t := by
  obtain ⟨vector, savedPc, v, f, hv, frame, ht⟩ := h
  exact ⟨vector, savedPc, v, f, same.trans hv, same.pushesFrame.1 frame, ht⟩

/-- What an instruction that takes no trap leaves alone, in any mode: memory, VCS, the fault registers, and every
segment, limit and bound register but cs and csl. -/
def KeepsMemoryAndSegments (s t : State) : Prop :=
  t.mem = s.mem ∧ SameVcs s t ∧ SameFaultRegs s t ∧ SameSegments (fun _ k => k = .cs ∨ k = .csl) s t

/-- The step runs the instruction `i` at pc from `u`, the state after the poll, and takes no trap. -/
def RunsInstruction (i : Instr) (s u t : State) : Prop :=
  (u = s ∨ u = s.tick) ∧ s.decodeNext = .ok i ∧ exec i u = .next t ∧ KeepsMemoryAndSegments u t

theorem setReg_special (s : State) (m : Mode) (r : Reg) (v : Word) (k : Mode) {q : BankReg} (hq : q ≠ .sp) :
    ((s.setReg m r v).bank k).special q = (s.bank k).special q := by
  by_cases h : k = m
  · subst h; simp [hq]
  · simp [h]

theorem setReg_flags (s : State) (m : Mode) (r : Reg) (v : Word) (k : Mode) :
    ((s.setReg m r v).bank k).flags = (s.bank k).flags := by
  by_cases h : k = m <;> simp [h]

theorem setCode_flags (s : State) (m : Mode) (cs csl : Word) (k : Mode) :
    ((s.setCode m cs csl).bank k).flags = (s.bank k).flags := by
  by_cases h : k = m <;> simp [h]

theorem setFlags_flags (s : State) (m : Mode) (f : Flags) (k : Mode) :
    ((s.setFlags m f).bank k).flags = if k = m then f else (s.bank k).flags := by
  by_cases h : k = m <;> simp [h]

theorem setSp_flags (s : State) (m : Mode) (v : Word) (k : Mode) :
    ((s.setSp m v).bank k).flags = (s.bank k).flags := by
  by_cases h : k = m <;> simp [h]

theorem setFlags_special (s : State) (m : Mode) (f : Flags) (k : Mode) (q : BankReg) :
    ((s.setFlags m f).bank k).special q = (s.bank k).special q := by
  by_cases h : k = m <;> simp [h]

theorem setCode_special (s : State) (m : Mode) (cs csl : Word) (k : Mode) {q : BankReg}
    (hq : ¬ (k = m ∧ (q = .cs ∨ q = .csl))) :
    ((s.setCode m cs csl).bank k).special q = (s.bank k).special q := by
  by_cases h : k = m
  · subst h
    simp only [true_and, not_or] at hq
    simp [Bank.code_special, hq]
  · simp [h]

theorem setSp_special (s : State) (m : Mode) (v : Word) (k : Mode) {q : BankReg} (hq : q ≠ .sp) :
    ((s.setSp m v).bank k).special q = (s.bank k).special q := by
  by_cases h : k = m
  · subst h; simp [Bank.sp_special, hq]
  · simp [h]

theorem KeepsMemoryAndSegments.setReg {s u : State} (h : KeepsMemoryAndSegments s u) (m : Mode) (r : Reg) (v : Word) :
    KeepsMemoryAndSegments s (u.setReg m r v) := by
  obtain ⟨mem, vcs, faults, segments⟩ := h
  exact ⟨mem, vcs, faults, fun n k sp code => (setReg_special u m r v n sp).trans (segments n k sp code)⟩

/-- The pops of RTI load cs and csl of the mode returned to, and no other segment, limit or bound register. -/
theorem returnFromTrap_sameSegments (f : FrameAddrs) (s : State) :
    SameSegments (fun m k => m = (returnFromTrap f s).mode ∧ (k = .cs ∨ k = .csl)) s (returnFromTrap f s) := by
  intro m k sp code
  rw [returnFromTrap_mode] at code
  rw [returnFromTrap_eq, State.setPc_bank, setCode_special _ _ _ _ _ code, writeMsw_eq, setFlags_special]
  exact setSp_special s .system _ m sp

theorem returnFromTrap_keeps (f : FrameAddrs) (s : State) : KeepsMemoryAndSegments s (returnFromTrap f s) := by
  refine ⟨?_, ?_, ?_, fun m k sp code => returnFromTrap_sameSegments f s m k sp fun both => code both.2⟩ <;>
    simp [returnFromTrap_eq, writeMsw_eq, SameVcs, SameFaultRegs]

/-- An instruction is a BRK, or takes Priv in a user mode, or leaves memory, faults and segments alone. -/
theorem exec_breaks_or_priv_or_keeps {i : Instr} {s t : State} (h : exec i s = .next t) :
    (∃ vector, brkSequence vector (s.pc + 1) s = .next t) ∨
      (s.mode.isUser = true ∧ i.mnemonic ∈ ["JMF", "MFSPR", "RTI"] ∧ takeException .priv s = .next t) ∨
        KeepsMemoryAndSegments s t := by
  cases exec_cases h with
  | assignsPc u pc hu ht =>
    refine .inr (.inr ?_)
    rcases hu with rfl | rfl <;> subst ht <;>
      exact ⟨rfl, ⟨rfl, rfl⟩, ⟨rfl, rfl, rfl, rfl⟩, fun _ _ _ _ => rfl⟩
  | writesReg u r v pc hu ht =>
    refine .inr (.inr ?_)
    rcases hu with rfl | rfl <;> subst ht <;>
      exact ⟨rfl, ⟨rfl, rfl⟩, ⟨rfl, rfl, rfl, rfl⟩, fun m k hk _ => setReg_special _ _ r v m hk⟩
  | movesReg m source r v pc hm ht =>
    subst ht
    exact .inr (.inr ⟨rfl, ⟨rfl, rfl⟩, ⟨rfl, rfl, rfl, rfl⟩, fun n k hk _ => setReg_special s m r v n hk⟩)
  | compares f pc hi ht =>
    subst ht
    exact .inr (.inr ⟨rfl, ⟨rfl, rfl⟩, ⟨rfl, rfl, rfl, rfl⟩, fun m k _ _ => setFlags_special s _ f m k⟩)
  | farJump cs csl pc hm ht =>
    subst ht
    exact .inr (.inr ⟨rfl, ⟨rfl, rfl⟩, ⟨rfl, rfl, rfl, rfl⟩,
      fun m k _ code => setCode_special s _ cs csl m fun both => code both.2⟩)
  | breaks vector hi ht => exact .inl ⟨vector, ht⟩
  | priv hm hi ht => exact .inr (.inl ⟨hm, hi, ht⟩)
  | returns rt ra f hm hi hf ht =>
    subst ht
    exact .inr (.inr ((returnFromTrap_keeps f s).setReg _ rt _))

/-- An instruction takes a trap, or leaves memory and the segments alone. -/
theorem exec_traps_or_keeps {i : Instr} {s t : State} (h : exec i s = .next t) :
    EntersTrap s t ∨ KeepsMemoryAndSegments s t := by
  rcases exec_breaks_or_priv_or_keeps h with ⟨vector, brk⟩ | ⟨-, -, priv⟩ | kept
  · exact .inl (.of_brkSequence (sameMachine_refl s) brk)
  · exact .inl (.of_takeException (sameMachine_refl s) priv)
  · exact .inr kept

/-- Everything a step does is a trap or an instruction that takes none (R308, R341). -/
theorem step_traps_or_runs {s t : State} (h : step s = .next t) :
    EntersTrap s t ∨ ∃ i u, RunsInstruction i s u t := by
  rcases step_cases h with ⟨-, reset⟩ | ⟨-, -, v, -, interrupt⟩ | ⟨-, u, polled, run⟩
  · exact .inl (.of_brkSequence (sameMachine_endReset s) reset)
  · exact .inl (.of_brkSequence (sameMachine_tick s) interrupt)
  · have hu : u = s ∨ u = s.tick := polled.imp_right And.right
    have same := sameMachine_of_polled hu
    rcases run with ⟨-, fetch⟩ | ⟨-, i, decoded, run⟩
    · exact .inl (.of_takeException same fetch)
    · rcases exec_traps_or_keeps run with trap | kept
      · exact .inl (trap.of_sameMachine same)
      · exact .inr ⟨i, u, hu, decodeNext_of_polled hu ▸ decoded, run, kept⟩

theorem RunsInstruction.keeps {i : Instr} {s u t : State} (h : RunsInstruction i s u t) :
    KeepsMemoryAndSegments s t := by
  obtain ⟨rfl | rfl, -, -, kept⟩ := h <;> exact kept

/-! ## What a trap keeps -/

theorem EntersTrap.mode {s t : State} (h : EntersTrap s t) : t.mode = .system := by
  obtain ⟨vector, savedPc, u, f, -, -, rfl⟩ := h
  rfl

theorem EntersTrap.rf {s t : State} (h : EntersTrap s t) : t.rf = s.rf := by
  obtain ⟨vector, savedPc, u, f, ⟨-, -, -, rf, -, -⟩, -, rfl⟩ := h
  exact rf

theorem EntersTrap.vcs {s t : State} (h : EntersTrap s t) : t.vcs = s.vcs := by
  obtain ⟨vector, savedPc, u, f, ⟨-, -, -, -, vcs, -⟩, -, rfl⟩ := h
  exact vcs

theorem EntersTrap.sameFlags {s t : State} (h : EntersTrap s t) : SameFlags nowhere s t := by
  obtain ⟨vector, savedPc, u, f, same, -, rfl⟩ := h
  intro m _
  rw [trapEntry_flags, same.bank]

theorem EntersTrap.stackPointer {s t : State} (h : EntersTrap s t) :
    t.reg .system 31#5 = s.reg .system 31#5 - 4 := by
  obtain ⟨vector, savedPc, u, f, same, -, rfl⟩ := h
  rw [trapEntry_reg, if_pos ⟨rfl, rfl⟩, same.reg]

theorem EntersTrap.sameRegs {s t : State} (h : EntersTrap s t) :
    SameRegs (fun m r => m = .system ∧ r = 31#5) s t := by
  obtain ⟨vector, savedPc, u, f, same, -, rfl⟩ := h
  intro m r other
  rw [trapEntry_reg, if_neg other, same.reg]

theorem EntersTrap.sameSegments {s t : State} (h : EntersTrap s t) :
    SameSegments (fun m k => m = .system ∧ (k = .cs ∨ k = .csl)) s t := by
  obtain ⟨vector, savedPc, u, f, same, -, rfl⟩ := h
  intro m k sp code
  rw [trapEntry_sameSegments vector savedPc f u m k sp code, same.bank]

/-- A trap writes the four locations of the frame below ssp, and no other. -/
theorem EntersTrap.sameMemory {s t : State} (h : EntersTrap s t) :
    ∃ f, s.PushesFrame f ∧ SameMemory f.Holds s t := by
  obtain ⟨vector, savedPc, u, f, same, frame, rfl⟩ := h
  refine ⟨f, frame, fun a outside => ?_⟩
  rw [trapEntry_sameMemory vector savedPc f u a outside, same.readWord]

theorem EntersTrap.inv {s t : State} (h : EntersTrap s t) (hs : s.Inv) : t.Inv := by
  obtain ⟨vector, savedPc, u, f, ⟨-, -, -, -, -, mem⟩, -, rfl⟩ := h
  exact trapEntry_inv vector savedPc f u (State.inv_of_mem hs mem)

/-! ## The invariants -/

/-- Settles O52: a trap stores the four words of its frame, and no other step writes memory. -/
theorem everyStepKeepsMemoryCanonical : Obligations.EveryStepKeepsMemoryCanonical := by
  intro s t inv h
  rcases step_traps_or_runs h with trap | ⟨i, u, run⟩
  · exact trap.inv inv
  · obtain ⟨mem, -⟩ := run.keeps
    exact State.inv_of_mem inv mem

/-- Settles O53: a trap loads cs and csl of the system set, JMF and RTI those of one set, and nothing else is loaded. -/
theorem noStepChangesDataSegmentsOrVcs : Obligations.NoStepChangesDataSegmentsOrVcs := by
  have mtspr : (Instr.mtspr, 0x1A#5) ∈ nameOnlyFunctions := by simp [nameOnlyFunctions, nameOnlyTransfersAndSystem]
  refine ⟨(nameOnly_refused_and_decoded mtspr).1, fun s t h => ?_⟩
  rcases step_traps_or_runs h with trap | ⟨i, u, run⟩
  · exact ⟨trap.vcs, fun m k sp code => trap.sameSegments m k sp fun both => code both.2⟩
  · obtain ⟨-, vcs, -, segments⟩ := run.keeps
    exact ⟨vcs.1, segments⟩

/-- Settles O58: only a trap writes memory, and it writes its frame. -/
theorem memoryChangesOnlyByTrapFrames : Obligations.MemoryChangesOnlyByTrapFrames := by
  intro s t a h changed
  rcases step_traps_or_runs h with trap | ⟨i, u, run⟩
  · obtain ⟨f, frame, outside⟩ := trap.sameMemory
    refine ⟨trap.mode, trap.stackPointer, f, (State.frameAt_iff s _ f).1 frame, ?_⟩
    have inside : f.Holds a := by_contra fun no => changed (outside a no)
    simpa [FrameAddrs.Holds] using inside
  · obtain ⟨mem, -⟩ := run.keeps
    exact absurd (by simp only [State.readWord, mem]) changed

/-- An instruction that changes a flag is a compare or RTI, and one that changes RF is RTI. -/
theorem exec_status {i : Instr} {s t : State} (h : exec i s = .next t) :
    ((∀ m, (t.bank m).flags = (s.bank m).flags) ∨ i.mnemonic ∈ ["CMPI", "CMPI.L", "CMP", "RTI"]) ∧
      (t.rf = s.rf ∨ i.mnemonic = "RTI") := by
  have trapped (trap : EntersTrap s t) : ((∀ m, (t.bank m).flags = (s.bank m).flags) ∨
      i.mnemonic ∈ ["CMPI", "CMPI.L", "CMP", "RTI"]) ∧ (t.rf = s.rf ∨ i.mnemonic = "RTI") :=
    ⟨.inl fun m => trap.sameFlags m id, .inl trap.rf⟩
  cases exec_cases h with
  | assignsPc u pc hu ht => rcases hu with rfl | rfl <;> subst ht <;> exact ⟨.inl fun _ => rfl, .inl rfl⟩
  | writesReg u r v pc hu ht =>
    rcases hu with rfl | rfl <;> subst ht <;> exact ⟨.inl fun m => setReg_flags _ _ r v m, .inl rfl⟩
  | movesReg m source r v pc hm ht =>
    subst ht
    exact ⟨.inl fun k => setReg_flags s m r v k, .inl rfl⟩
  | compares f pc hi ht =>
    subst ht
    refine ⟨.inr ?_, .inl rfl⟩
    simp only [List.mem_cons] at hi ⊢
    tauto
  | farJump cs csl pc hm ht =>
    subst ht
    exact ⟨.inl fun m => setCode_flags s _ cs csl m, .inl rfl⟩
  | breaks vector hi ht => exact trapped (.of_brkSequence (sameMachine_refl s) ht)
  | priv hm hi ht => exact trapped (.of_takeException (sameMachine_refl s) ht)
  | returns rt ra f hm hi hf ht =>
    subst hi
    exact ⟨.inr (by simp [Instr.mnemonic]), .inr rfl⟩

/-- Settles O56: a trap changes neither, and of the instructions only the compares and RTI do. -/
theorem statusBitsChangeOnlyByCompareOrRti : Obligations.StatusBitsChangeOnlyByCompareOrRti := by
  intro s t h
  rcases step_traps_or_runs h with trap | ⟨i, u, polled, decoded, run, -⟩
  · exact ⟨fun ⟨m, changed⟩ => absurd (trap.sameFlags m id) changed, fun changed => absurd trap.rf changed⟩
  · have same := sameMachine_of_polled polled
    obtain ⟨flags, rf⟩ := exec_status run
    refine ⟨fun ⟨m, changed⟩ => ⟨i, decoded, flags.resolve_left fun kept => changed ?_⟩, fun changed =>
      ⟨i, decoded, rf.resolve_left fun kept => changed ?_⟩⟩
    · rw [kept m, same.bank]
    · obtain ⟨-, -, -, rf, -, -⟩ := same
      rw [kept, rf]

/-- A trap sequence writes no fault register; recording an exception comes before it (R304). -/
theorem brkSequence_sameFaultRegs {vector : VectorNo} {savedPc : Word} {s t : State}
    (h : brkSequence vector savedPc s = .next t) : SameFaultRegs s t := by
  obtain ⟨f, -, rfl⟩ := brkSequence_eq_next_iff.1 h
  exact trapEntry_sameFaultRegs vector savedPc f s

/-- Settles O57: the reset BRK, an interrupt and BRK are trap sequences alone, and no instruction without a trap writes a
fault register, so an exception was recorded: Bounds(fetch), or Priv. -/
theorem faultRegistersChangeOnlyByExceptions : Obligations.FaultRegistersChangeOnlyByExceptions := by
  intro s t h changed
  rcases step_cases h with ⟨-, reset⟩ | ⟨-, -, v, -, interrupt⟩ | ⟨-, u, polled, run⟩
  · exact absurd (brkSequence_sameFaultRegs reset) changed
  · exact absurd (brkSequence_sameFaultRegs interrupt) changed
  · have hu : u = s ∨ u = s.tick := polled.imp_right And.right
    have changed : ¬ SameFaultRegs u t := by rcases hu with rfl | rfl <;> exact changed
    rcases run with ⟨beyond, -⟩ | ⟨-, i, decoded, run⟩
    · have beyond : (u.bank u.mode).csl < u.pc := of_decide_eq_true beyond
      rcases hu with rfl | rfl <;> exact .inl beyond
    · rcases exec_breaks_or_priv_or_keeps run with ⟨vector, brk⟩ | ⟨user, privileged, -⟩ | ⟨-, -, faults, -⟩
      · exact absurd (brkSequence_sameFaultRegs brk) changed
      · have user : s.mode = .user1 ∨ s.mode = .user2 := by
          rcases hu with rfl | rfl <;> exact (Mode.isUser_iff _).1 user
        exact .inr ⟨user, i, decodeNext_of_polled hu ▸ decoded, privileged⟩
      · exact absurd faults changed

/-! ## Confinement of the user modes -/

/-- The step stayed in its mode and touched only registers of its own and the system set, and flags of its own set. -/
def StaysConfined (s t : State) : Prop :=
  SameStatus s t ∧ SameRegs (fun m _ => m = s.mode ∨ m = .system) s t ∧ SameFlags (fun m => m = s.mode) s t ∧
    SameSegments nowhere2 s t ∧ SameVcs s t ∧ SameFaultRegs s t ∧ SameMemory nowhere s t

theorem StaysConfined.of_onlyPcChanges {s t : State} (h : OnlyPcChanges s t) : StaysConfined s t := by
  obtain ⟨regs, flags, segments, status, vcs, faults, memory⟩ := h
  exact ⟨status, fun m r _ => regs m r id, fun m _ => flags m id, segments, vcs, faults, memory⟩

theorem StaysConfined.of_onlyRegChanges {s t : State} {m : Mode} {r : Reg} {v : Word} (hm : m = s.mode ∨ m = .system)
    (h : OnlyRegChanges m r v s t) : StaysConfined s t := by
  obtain ⟨-, regs, flags, segments, status, vcs, faults, memory⟩ := h
  exact ⟨status, fun k q other => regs k q fun ⟨same, _⟩ => other (same ▸ hm), fun k _ => flags k id, segments, vcs,
    faults, memory⟩

theorem StaysConfined.of_onlyFlagsChange {s t : State} (h : OnlyFlagsChange s.mode s t) : StaysConfined s t := by
  obtain ⟨regs, flags, segments, status, vcs, faults, memory⟩ := h
  exact ⟨status, fun m r _ => regs m r id, flags, segments, vcs, faults, memory⟩

/-- What MOV may write in a user mode: its own set or the system set (R243, D24). -/
theorem target_of_movAdmitted {source target current : Mode} (user : current.isUser = true)
    (h : movAdmitted source target current = true) : target = current ∨ target = .system := by
  simp only [movAdmitted, user, Bool.not_true, Bool.false_or, Bool.and_eq_true, Bool.or_eq_true, beq_iff_eq] at h
  exact h.2

/-- In a user mode an instruction stays confined or takes a trap: JMF and RTI are out of reach. -/
theorem exec_traps_or_staysConfined {i : Instr} {s t : State} (user : s.mode.isUser = true) (h : exec i s = .next t) :
    EntersTrap s t ∨ StaysConfined s t := by
  cases exec_cases h with
  | assignsPc u pc hu ht =>
    refine .inr (.of_onlyPcChanges ?_)
    rcases hu with rfl | rfl <;> subst ht
    · exact State.setPc_onlyPcChanges _ pc
    · exact State.tick_setPc_onlyPcChanges s pc
  | writesReg u r v pc hu ht =>
    have only : OnlyRegChanges s.mode r v s t := by
      rcases hu with rfl | rfl <;> subst ht
      · exact State.setReg_setPc_onlyRegChanges _ _ r v pc
      · exact State.setReg_setPc_onlyRegChanges s.tick s.mode r v pc
    exact .inr (.of_onlyRegChanges (.inl rfl) only)
  | movesReg m source r v pc hm ht =>
    subst ht
    exact .inr (.of_onlyRegChanges (target_of_movAdmitted user hm) (State.setReg_setPc_onlyRegChanges s m r v pc))
  | compares f pc hi ht =>
    subst ht
    exact .inr (.of_onlyFlagsChange (State.setFlags_setPc_onlyFlagsChange s f pc))
  | farJump cs csl pc hm ht => simp [user] at hm
  | breaks vector hi ht => exact .inl (.of_brkSequence (sameMachine_refl s) ht)
  | priv hm hi ht => exact .inl (.of_takeException (sameMachine_refl s) ht)
  | returns rt ra f hm hi hf ht => simp [hm, Mode.isUser] at user

/-- A trap ends in system mode, with no register changed but ssp, no flag, and no segment but the system set's cs, csl. -/
theorem EntersTrap.confined {s t : State} (h : EntersTrap s t) :
    t.mode = .system ∧ SameRegs (fun m r => m = .system ∧ r = 31#5) s t ∧ SameFlags nowhere s t ∧
      SameSegments (fun m k => m = .system ∧ (k = .cs ∨ k = .csl)) s t :=
  ⟨h.mode, h.sameRegs, h.sameFlags, h.sameSegments⟩

/-- Settles O55: a trap, or an instruction that runs in the user mode without one. -/
theorem userModeStepIsConfined : Obligations.UserModeStepIsConfined := by
  intro s t user h
  rcases step_traps_or_runs h with trap | ⟨i, u, polled, -, run, -⟩
  · exact .inr trap.confined
  · have same := sameMachine_of_polled polled
    have isUser : u.mode.isUser = true := by rw [same.2.1, Mode.isUser_iff]; exact user
    rcases exec_traps_or_staysConfined isUser run with trap | confined
    · exact .inr (trap.of_sameMachine same).confined
    · rcases polled with rfl | rfl <;> exact .inl confined

end Sys2Proof.Machine
end

section
/-! PROOFS. The status word and RTI: the MSW image written back, the state RTI leaves read field by field, and that RTI
undoes BRK. -/

namespace Sys2Proof.Machine

/-! ## The status word (R29) -/

/-- An MSW image is a word whose defined bits read as the mode, flags, RF and IM it is the image of. -/
theorem isMswImage_iff {w : Word} {mode : BitVec 2} {f : Flags} {rf im : Bool} :
    IsMswImage w mode f rf im ↔
      modeBitsOfMsw w = mode ∧ flagsOfMsw w = f ∧ rfOfMsw w = rf ∧ imOfMsw w = im := by
  obtain ⟨cf, zf, nf, vf, odd⟩ := f
  simp only [IsMswImage, modeBitsOfMsw, flagsOfMsw, rfOfMsw, imOfMsw, Flags.mk.injEq]
  tauto

/-- Writing an MSW image enters its mode with its flags, RF and IM. -/
theorem writeMsw_of_isMswImage {w : Word} {m : Mode} {f : Flags} {rf im : Bool} (h : IsMswImage w m.bits f rf im)
    (s : State) : s.writeMsw w = (((s.setMode m).setIm im).setRf rf).setFlags m f := by
  obtain ⟨mode, flags, hrf, him⟩ := isMswImage_iff.1 h
  rw [writeMsw_eq, mode, flags, hrf, him, Mode.ofBits_bits]

/-- Settles O50. -/
theorem mswImageWrittenBackKeepsStatus : Obligations.MswImageWrittenBackKeepsStatus := by
  intro s m unused
  have image : IsMswImage (s.mswImage m unused) m.bits (s.bank m).flags s.rf s.im := mswWord_isMswImage ..
  rw [writeMsw_of_isMswImage image]
  refine ⟨rfl, rfl, rfl, fun k => ?_⟩
  by_cases h : k = m
  · subst h; simp
  · simp [h]

/-! ## The state after the pops of RTI (R242) -/

section
variable (f : FrameAddrs) (s : State)

@[simp] theorem returnFromTrap_im : (returnFromTrap f s).im = imOfMsw (s.readWord f.msw) := rfl
@[simp] theorem returnFromTrap_rf : (returnFromTrap f s).rf = rfOfMsw (s.readWord f.msw) := rfl
@[simp] theorem returnFromTrap_pc : (returnFromTrap f s).pc = s.readWord f.pc := rfl
@[simp] theorem returnFromTrap_readWord (a : LinAddr) : (returnFromTrap f s).readWord a = s.readWord a := rfl

theorem returnFromTrap_flags (m : Mode) :
    ((returnFromTrap f s).bank m).flags =
      if m = (returnFromTrap f s).mode then flagsOfMsw (s.readWord f.msw) else (s.bank m).flags := by
  rw [returnFromTrap_mode, returnFromTrap_eq, State.setPc_bank, setCode_flags, writeMsw_eq, setFlags_flags,
    State.setRf_bank, State.setIm_bank, State.setMode_bank, setSp_flags]

theorem returnFromTrap_code :
    ((returnFromTrap f s).bank (returnFromTrap f s).mode).cs = s.readWord f.cs ∧
      ((returnFromTrap f s).bank (returnFromTrap f s).mode).csl = s.readWord f.csl := by
  rw [returnFromTrap_mode, returnFromTrap_eq]
  simp

theorem returnFromTrap_reg (m : Mode) (r : Reg) :
    (returnFromTrap f s).reg m r =
      if m = .system ∧ r = 31#5 then s.reg .system 31#5 + 4 else s.reg m r := by
  simp only [returnFromTrap_eq, writeMsw_eq, State.setPc_reg, State.setCode_reg, State.setFlags_reg, State.setRf_reg,
    State.setIm_reg, State.setMode_reg, State.setSp_reg]
  rfl

/-- The popped word is the image of the status RTI returns to. -/
theorem returnFromTrap_isMswImage :
    IsMswImage (s.readWord f.msw) (returnFromTrap f s).mode.bits
      ((returnFromTrap f s).bank (returnFromTrap f s).mode).flags (returnFromTrap f s).rf (returnFromTrap f s).im := by
  rw [isMswImage_iff, returnFromTrap_flags, if_pos rfl, returnFromTrap_mode, Mode.bits_ofBits]
  exact ⟨rfl, rfl, rfl, rfl⟩

end

/-- In system mode, where the frame at ssp passes, RTI pops it and transfers the register last. -/
theorem exec_rti {s : State} {f : FrameAddrs} (rt ra : Reg) (hm : s.mode = .system)
    (frame : s.FrameAt (s.reg .system 31#5) f) :
    exec (.rti rt ra) s = .next ((returnFromTrap f s).setReg (returnFromTrap f s).mode rt (s.reg .system ra)) := by
  have passes : trapFrame (s.bank .system).sp s = some f :=
    (trapFrame_iff hm).2 (by simpa [State.reg] using frame)
  have body : exec (.rti rt ra) s = _ := privileged_of_supervisor (.inl hm)
  rw [body, if_neg (by simp [hm]), passes]
  simp only [State.x, hm]

/-- Settles O46. -/
theorem rtiRestoresTheFrame : Obligations.RtiRestoresTheFrame := by
  intro s rt ra f hm frame
  have image := returnFromTrap_isMswImage f s
  obtain ⟨cs, csl⟩ := returnFromTrap_code f s
  obtain ⟨mem, vcs, faults, -⟩ := returnFromTrap_keeps f s
  have reg := returnFromTrap_reg f s
  have flags := returnFromTrap_flags f s
  have segments := returnFromTrap_sameSegments f s
  have memory := returnFromTrap_readWord f s
  refine ⟨_, exec_rti rt ra hm frame, ?_⟩
  have pc := returnFromTrap_pc f s
  generalize returnFromTrap f s = u at *
  refine ⟨?_, pc, ?_, ?_, ?_, ?_, ?_, ?_, ?_, vcs, faults, fun a _ => memory a⟩
  · rw [State.setReg_mode, setReg_flags]
    exact image
  · simpa using cs
  · simpa using csl
  · by_cases zero : rt = 0#5
    · simp [zero, State.reg_zero]
    · simp [State.setReg_reg, zero]
  · intro other
    rw [State.setReg_reg, if_neg fun ⟨mode, r, _⟩ => other ⟨mode.symm, r.symm⟩, reg, if_pos ⟨rfl, rfl⟩]
  · intro m r other
    rw [State.setReg_reg, if_neg fun ⟨mode, hr, _⟩ => other (.inl ⟨mode, hr⟩), reg, if_neg fun h => other (.inr h)]
  · intro m other
    exact (setReg_flags ..).trans ((flags m).trans (if_neg other))
  · intro m k sp code
    rw [setReg_special _ _ _ _ _ sp, segments m k sp code]

/-! ## RTI after BRK -/

/-- An access of the stack names the same location under another code segment, unless it goes through CS. -/
theorem stackWordAt_trapEntry {vector : VectorNo} {savedPc : Word} {f : FrameAddrs} {s : State} {ea : Word} {a : LinAddr}
    (through : (s.bank .system).cs = s.vcs ∨ ea.toNat / 2 ^ 29 ≠ 4) (h : s.StackWordAt ea a) :
    (trapEntry vector savedPc f s).StackWordAt ea a := by
  obtain ⟨row, mem, selector, low, high, address⟩ := h
  have segment : row.2 ((trapEntry vector savedPc f s).bank .system) = row.2 (s.bank .system) := by
    rw [trapEntry_bank, if_pos rfl]
    simp only [selectorRows, List.mem_cons, List.not_mem_nil, or_false] at mem
    rcases mem with rfl | rfl | rfl | rfl | rfl | rfl
    case inr.inr.inr.inr.inl =>
      rcases through with same | other
      · exact same.symm
      · exact absurd selector other
    all_goals rfl
  refine ⟨row, mem, selector, ?_, ?_, ?_⟩
  · simpa [trapEntry_bank] using low
  · simpa [trapEntry_bank] using high
  · rw [segment, address]

/-- The frame a trap pushed is the one RTI pops, unless a word of it is reached through a changed CS. -/
theorem frameAt_trapEntry {vector : VectorNo} {savedPc : Word} {f : FrameAddrs} {s : State}
    (through : (s.bank .system).cs = s.vcs ∨
      ∀ k ∈ [1#32, 2#32, 3#32, 4#32], (s.reg .system 31#5 - k).toNat / 2 ^ 29 ≠ 4)
    (h : s.PushesFrame f) :
    (trapEntry vector savedPc f s).FrameAt ((trapEntry vector savedPc f s).reg .system 31#5) f := by
  obtain ⟨msw, pc, cs, csl⟩ := h
  rw [trapEntry_reg, if_pos ⟨rfl, rfl⟩]
  generalize s.reg .system 31#5 = sp at *
  refine ⟨stackWordAt_trapEntry ?_ msw, stackWordAt_trapEntry ?_ pc, stackWordAt_trapEntry ?_ cs,
    stackWordAt_trapEntry ?_ csl⟩
  · exact through.imp_right fun out => out 4#32 (by simp)
  · have : sp - 4 + 1 = sp - 3 := by ring
    exact through.imp_right fun out => this ▸ out 3#32 (by simp)
  · have : sp - 4 + 2 = sp - 2 := by ring
    exact through.imp_right fun out => this ▸ out 2#32 (by simp)
  · have : sp - 4 + 3 = sp - 1 := by ring
    exact through.imp_right fun out => this ▸ out 1#32 (by simp)

/-- A write of r0 leaves the state as it was (R22, D14). -/
theorem State.setReg_zero (s : State) (m : Mode) (v : Word) : s.setReg m 0#5 v = s := by
  rw [State.setReg, Bank.setReg_zero]
  cases m <;> rfl

/-- What the pops of RTI restore of a state `s` whose trap frame they read in `t`: mode, IM, RF and the flags of the
interrupted mode. -/
theorem returnFromTrap_of_image {f : FrameAddrs} {s t : State}
    (image : IsMswImage (t.readWord f.msw) s.mode.bits (s.bank s.mode).flags s.rf s.im) :
    (returnFromTrap f t).mode = s.mode ∧ (returnFromTrap f t).im = s.im ∧ (returnFromTrap f t).rf = s.rf ∧
      ∀ m, ((returnFromTrap f t).bank m).flags = if m = s.mode then (s.bank m).flags else (t.bank m).flags := by
  obtain ⟨mode, flags, rf, im⟩ := isMswImage_iff.1 image
  have back : (returnFromTrap f t).mode = s.mode := by rw [returnFromTrap_mode, mode, Mode.ofBits_bits]
  refine ⟨back, im, rf, fun m => ?_⟩
  rw [returnFromTrap_flags, back, flags]
  split
  · next here => rw [here]
  · rfl

/-- Settles O47: RTI pops the words the trap pushed, and what it does not pop the trap had left alone, but for ssp, which
it moves back. -/
theorem rtiUndoesBrk : Obligations.RtiUndoesBrk := by
  intro s vector f frame through
  obtain ⟨image, savedPc, savedCs, savedCsl, memory, -⟩ := trapEntry_trapTaken vector (s.pc + 1) frame
  have rti := exec_rti 0#5 0#5 (trapEntry_mode vector (s.pc + 1) f s) (frameAt_trapEntry through frame)
  rw [State.setReg_zero] at rti
  refine ⟨_, _, brkSequence_eq_next_iff.2 ⟨f, frame, rfl⟩, rti, ?_⟩
  have trap_reg := trapEntry_reg vector (s.pc + 1) f s
  have trap_flags := trapEntry_flags vector (s.pc + 1) f s
  have trap_segments := trapEntry_sameSegments vector (s.pc + 1) f s
  have trap_code : ((trapEntry vector (s.pc + 1) f s).bank .system).cs = s.vcs ∧
      ((trapEntry vector (s.pc + 1) f s).bank .system).csl = 2047 := by simp [trapEntry_bank]
  have trap_vcs : SameVcs s (trapEntry vector (s.pc + 1) f s) := ⟨rfl, rfl⟩
  have trap_faults := trapEntry_sameFaultRegs vector (s.pc + 1) f s
  generalize trapEntry vector (s.pc + 1) f s = t at *
  obtain ⟨mode, im, rf, flags⟩ := returnFromTrap_of_image image
  obtain ⟨cs, csl⟩ := returnFromTrap_code f t
  obtain ⟨-, vcs, faults, -⟩ := returnFromTrap_keeps f t
  have segments := returnFromTrap_sameSegments f t
  rw [mode] at cs csl segments
  refine ⟨savedPc, fun m r _ => ?_, fun m _ => ?_, mode, im, rf, fun m k sp kept => ?_, fun other => ?_,
    ⟨vcs.1.trans trap_vcs.1, vcs.2.trans trap_vcs.2⟩, ?_, memory⟩
  · rw [returnFromTrap_reg, trap_reg, trap_reg]
    by_cases ssp : m = .system ∧ r = 31#5
    · simp [ssp]
    · simp [ssp]
  · rw [flags, trap_flags, ite_self]
  · by_cases popped : m = s.mode ∧ (k = .cs ∨ k = .csl)
    · obtain ⟨rfl, rfl | rfl⟩ := popped
      · exact cs.trans savedCs
      · exact csl.trans savedCsl
    · rw [segments m k sp popped]
      refine trap_segments m k sp fun ⟨sys, code⟩ => kept ⟨sys, fun hm => popped ⟨sys.trans hm.symm, code⟩, code⟩
  · have here (k : BankReg) (sp : k ≠ .sp) := segments .system k sp fun both => other both.1.symm
    exact ⟨(here .cs (by decide)).trans trap_code.1, (here .csl (by decide)).trans trap_code.2⟩
  · obtain ⟨f1, f2, f3, f4⟩ := faults
    obtain ⟨e1, e2, e3, e4⟩ := trap_faults
    exact ⟨f1.trans e1, f2.trans e2, f3.trans e3, f4.trans e4⟩

end Sys2Proof.Machine
end

section
/-! PROOFS. Data accesses: the selector, the bounds checks and the linear address, and the access of a load or store. -/

namespace Sys2Proof.Machine

/-! ## The selector (R72, R73) -/

/-- The selectors that name a segment, with the segment value and the limit each names in a register set (R72). -/
def limitRows : List (Nat × (Bank → Word) × (Bank → Word)) :=
  [(0, Bank.ds, Bank.dsl), (1, Bank.es, Bank.esl), (2, Bank.fs, Bank.fsl), (3, Bank.gs, Bank.gsl),
    (4, Bank.cs, Bank.csl), (7, Bank.ds, Bank.dsl)]

theorem selectSegment_of_selectorRow {row : Nat × (Bank → Word)} (hrow : row ∈ selectorRows) {ea : Word}
    (h : ea.toNat / 2 ^ 29 = row.1) :
    ∃ g, selectSegment (ea.extractLsb' 29 3) = some g ∧ row.2 = fun b => b.segment g := by
  rcases selectSegment_cases ea with ⟨g, named, mem⟩ | ⟨-, reserved⟩
  · rw [h] at mem
    exact ⟨g, named, selectorRows_unique hrow mem⟩
  · rw [h] at reserved
    exact absurd reserved (not_or.2 (selectorRows_not_reserved hrow))

/-- The segment and the limit of a row are those of one segment register, the one its selector names. -/
theorem selectSegment_of_limitRow {row : Nat × (Bank → Word) × (Bank → Word)} (hrow : row ∈ limitRows) {ea : Word}
    (h : ea.toNat / 2 ^ 29 = row.1) :
    ∃ g, selectSegment (ea.extractLsb' 29 3) = some g ∧ row.2 = (fun b => b.segment g, fun b => b.limit g) := by
  have selector : ea.extractLsb' 29 3 = BitVec.ofNat 3 row.1 := by
    rw [← h, ← selector_toNat, BitVec.ofNat_toNat, BitVec.setWidth_eq]
  rw [selector]
  simp only [limitRows, List.mem_cons, List.not_mem_nil, or_false] at hrow
  rcases hrow with rfl | rfl | rfl | rfl | rfl | rfl
  · exact ⟨.ds, rfl, rfl⟩
  · exact ⟨.es, rfl, rfl⟩
  · exact ⟨.fs, rfl, rfl⟩
  · exact ⟨.gs, rfl, rfl⟩
  · exact ⟨.cs, rfl, rfl⟩
  · exact ⟨.ds, rfl, rfl⟩

/-- Settles O8: no selector that names a segment is 5 or 6. -/
theorem reservedSelectorsAreRefused : Obligations.ReservedSelectorsAreRefused := by
  intro ea margin isStack s reserved
  rcases selectSegment_cases ea with ⟨g, -, mem⟩ | ⟨none, -⟩
  · exact absurd reserved (not_or.2 (selectorRows_not_reserved mem))
  · simp [dataAddr, none]

/-! ## The bounds checks (R81, R83) -/

theorem offsetOf_eq_ofNat (ea : Word) : offsetOf ea = BitVec.ofNat 32 (ea.toNat % 2 ^ 29) := by
  rw [← offsetOf_toNat, BitVec.ofNat_toNat, BitVec.setWidth_eq]

/-- The linear address of an effective address in a segment, as a number (R71). -/
theorem lin_offsetOf_toNat (seg ea : Word) :
    (lin seg (offsetOf ea)).toNat = (seg.toNat * 4096 + ea.toNat % 2 ^ 29) % 2 ^ 44 := by
  rw [lin_toNat, offsetOf_toNat]

section
variable (s : State) {base : Reg} {ea : Word} {g : SegName}

/-- An ordinary access is checked against the limit of its segment. -/
theorem accessAddr_ordinary (hb : base.toNat ≤ 29) (hg : selectSegment (ea.extractLsb' 29 3) = some g) :
    accessAddr base ea s =
      if ((s.bank s.mode).limit g).toNat < ea.toNat % 2 ^ 29 then
        .raised (.boundsData (BitVec.ofNat 32 (ea.toNat % 2 ^ 29)) ((s.bank s.mode).segment g))
      else .address (lin ((s.bank s.mode).segment g) (offsetOf ea)) := by
  have ordinary : ¬ 30 ≤ base.toNat := by omega
  simp only [accessAddr, dataAddr, hg, ordinary, decide_false, Bool.false_eq_true, if_false, BitVec.lt_def,
    offsetOf_toNat, ← offsetOf_eq_ofNat]

/-- A stack access is checked against the stack bounds, the lower one with the margin of four words. -/
theorem accessAddr_stack (hb : 30 ≤ base.toNat) (hg : selectSegment (ea.extractLsb' 29 3) = some g) :
    accessAddr base ea s =
      if ea.toNat % 2 ^ 29 < ((s.bank s.mode).sl.toNat + 4) % 2 ^ 32 ∨ (s.bank s.mode).su.toNat < ea.toNat % 2 ^ 29 then
        .raised (.stackFault (BitVec.ofNat 32 (ea.toNat % 2 ^ 29)) ((s.bank s.mode).segment g))
      else .address (lin ((s.bank s.mode).segment g) (offsetOf ea)) := by
  have margin : ((s.bank s.mode).sl + Config.stackMargin).toNat = ((s.bank s.mode).sl.toNat + 4) % 2 ^ 32 :=
    BitVec.toNat_add ..
  simp only [accessAddr, dataAddr, hg, hb, decide_true, if_true, outsideStack, Bool.or_eq_true, decide_eq_true_eq,
    BitVec.lt_def, offsetOf_toNat, ← offsetOf_eq_ofNat, margin]

end

/-- Settles O6. -/
theorem dataAccessFollowsSegmentAndLimit : Obligations.DataAccessFollowsSegmentAndLimit := by
  intro row hrow base ea s hb selector
  obtain ⟨g, hg, hr⟩ := selectSegment_of_limitRow hrow selector
  rw [hr, accessAddr_ordinary s hb hg]
  split
  · rfl
  · exact ⟨_, rfl, lin_offsetOf_toNat _ ea⟩

/-- Settles O7. -/
theorem stackAccessFollowsStackBounds : Obligations.StackAccessFollowsStackBounds := by
  intro row hrow base ea s hb selector
  obtain ⟨g, hg, hr⟩ := selectSegment_of_selectorRow hrow selector
  rw [hr, accessAddr_stack s hb hg]
  split
  · rfl
  · exact ⟨_, rfl, lin_offsetOf_toNat _ ea⟩

/-! ## The access of a load or store (R284) -/

/-- Where the check raises a data fault, the access takes the exception and records its offset and segment value. -/
theorem accessMemory_of_raised {base : Reg} {offset : Word} {body : LinAddr → Result} {s : State} {e : Exn} {n : Nat}
    {seg : Word} (he : e = .boundsData (BitVec.ofNat 32 (n % 2 ^ 29)) seg ∨ e = .stackFault (BitVec.ofNat 32 (n % 2 ^ 29)) seg)
    (raised : accessAddr base (s.effectiveAddress base offset) s = .raised e) {f : FrameAddrs} (h : s.PushesFrame f) :
    ∃ t, accessMemory base offset body s = .next t ∧ ExceptionTaken e.vector f s t ∧ t.faultAddr.toNat = n % 2 ^ 29 ∧
      t.faultSeg = seg := by
  have small : (BitVec.ofNat 32 (n % 2 ^ 29)).toNat = n % 2 ^ 29 := by
    rw [BitVec.toNat_ofNat]
    omega
  obtain ⟨t, next, taken, addr, fseg⟩ := takeException_exceptionTaken e h
  rw [accessMemory, raised]
  refine ⟨t, next, taken, ?_, ?_⟩
  · rw [addr]
    rcases he with rfl | rfl <;> exact small
  · rw [fseg]
    rcases he with rfl | rfl <;> rfl

/-- Where the check passes, the access is what the load or store does with the linear address. -/
theorem accessMemory_of_address {base : Reg} {offset : Word} (body : LinAddr → Result) {s : State} {a : LinAddr}
    (h : accessAddr base (s.effectiveAddress base offset) s = .address a) : accessMemory base offset body s = body a := by
  rw [accessMemory, h]

/-- The effective address as a number (R284, D3). -/
theorem effectiveAddress_toNat (base : Reg) (offset : Word) (s : State) :
    (s.effectiveAddress base offset).toNat = ((s.reg s.mode base).toNat + offset.toNat) % 2 ^ 32 := BitVec.toNat_add ..

/-- Settles O59: the check is that of `accessAddr`, and a failing one takes its exception in place of the access. -/
theorem loadStoreAccessIsCheckedFirst : Obligations.LoadStoreAccessIsCheckedFirst := by
  refine ⟨fun row hrow base offset body s ea hea selector => ?_, fun base offset body s ea hea reserved => ?_⟩ <;>
    rw [← effectiveAddress_toNat] at hea <;> subst hea
  · obtain ⟨g, hg, hr⟩ := selectSegment_of_limitRow hrow selector
    have address := lin_offsetOf_toNat ((s.bank s.mode).segment g) (s.effectiveAddress base offset)
    rw [hr]
    rcases Nat.lt_or_ge 29 base.toNat with stack | ordinary
    · have check := accessAddr_stack s stack hg
      rw [if_neg (by omega)]
      split
      · next outside =>
        rw [if_pos outside.2] at check
        exact fun f frame => accessMemory_of_raised (.inr rfl) check frame
      · next inside =>
        rw [if_neg fun outside => inside ⟨stack, outside⟩] at check
        exact ⟨_, accessMemory_of_address body check, address⟩
    · have check := accessAddr_ordinary s ordinary hg
      split
      · next beyond =>
        rw [if_pos beyond.2] at check
        exact fun f frame => accessMemory_of_raised (.inl rfl) check frame
      · next within =>
        rw [if_neg fun beyond => within ⟨ordinary, beyond⟩] at check
        rw [if_neg (by omega)]
        exact ⟨_, accessMemory_of_address body check, address⟩
  · rw [accessMemory, accessAddr, reservedSelectorsAreRefused _ _ _ _ reserved]

end Sys2Proof.Machine
end

section
/-! PROOFS. Operate instructions: those that write one register, the compares, and those with an inferred meaning. -/

namespace Sys2Proof.Machine

/-! ## One register (R140, R164) -/

/-- Settles O17. -/
theorem addImmediateWritesSum : Obligations.AddImmediateWritesSum := by
  intro s rt ra imm x word
  have short : exec (.addi rt ra imm) s = writeX rt (s.reg s.mode ra + imm.signExtend 32) 1 s := rfl
  have long : exec (.addiL rt ra x word) s = writeX rt (s.reg s.mode ra + word) 2 s := rfl
  rw [short, long]
  exact ⟨writeX_next_onlyRegChanges .., writeX_next_onlyRegChanges ..⟩

/-- Settles O21: the sum of words is the sum of numbers modulo 2^32. -/
theorem addWritesSum : Obligations.AddWritesSum := by
  intro s rt rb ra
  have sum : exec (.add rt rb ra) s = writeX rt (s.reg s.mode ra + s.reg s.mode rb) 1 s := rfl
  rw [sum, ← BitVec.add_def]
  exact writeX_next_onlyRegChanges ..

/-! ## The compares (R148) -/

/-- A compare completes with pc advanced, and writes the flags of the numbers compared in the current mode alone. -/
theorem compareX_next_onlyFlagsChange (a b n : Word) (s : State) :
    ∃ t, compareX a b n s = .next t ∧ t.pc = s.pc + n ∧ OnlyFlagsChange s.mode s t ∧
      IsCompare a b (t.bank s.mode).flags := by
  refine ⟨_, compareX_eq a b n s, rfl, State.setFlags_setPc_onlyFlagsChange s _ _, ?_⟩
  rw [State.setPc_bank, State.tick_bank, setFlags_flags, if_pos rfl]
  exact compareFlags_isCompare a b _

/-- Settles O19. -/
theorem compareImmediateWritesFlags : Obligations.CompareImmediateWritesFlags := by
  intro s ra imm x word
  have short : exec (.cmpi ra imm) s = compareX (s.reg s.mode ra) (imm.signExtend 32) 1 s := rfl
  have long : exec (.cmpiL ra x word) s = compareX (s.reg s.mode ra) word 2 s := rfl
  rw [short, long]
  exact ⟨compareX_next_onlyFlagsChange .., compareX_next_onlyFlagsChange ..⟩

/-! ## Inferred meanings (D26, log 7, log 21) -/

/-- Inside the inferred format the meaning runs. -/
theorem inferred_of_format {ok : Bool} (h : ok = true) (meaning : Result) : inferred ok meaning = meaning := by
  rw [inferred_eq, if_pos h]

/-- Outside it the word is refused as map-only. -/
theorem inferred_of_not_format {ok : Bool} (h : ok = false) (meaning : Result) :
    inferred ok meaning = .refused .mapOnlyInstruction := by
  rw [inferred_eq, h]
  rfl

/-- Settles O20. -/
theorem inferredImmediatesAndNop : Obligations.InferredImmediatesAndNop := by
  refine ⟨fun row hrow s rt ra imm x word => ?_, fun s => ?_⟩
  · have meaning (value : Imm) : exec (row.1 rt ra value) s =
        writeX rt (row.2 (s.reg s.mode ra) (immValue value)) (immWords value) s := by
      simp only [List.mem_cons, List.not_mem_nil, or_false] at hrow
      rcases hrow with rfl | rfl <;> exact inferred_of_format rfl _
    rw [meaning, meaning]
    exact ⟨writeX_next_onlyRegChanges .., writeX_next_onlyRegChanges ..⟩
  · exact ⟨s.setPc (s.pc + 1), inferred_of_format rfl _, rfl, State.setPc_onlyPcChanges s _⟩

/-- Settles O24. -/
theorem inferredRegisterOperations : Obligations.InferredRegisterOperations := by
  intro row hrow s rt rb ra
  have meaning : exec (row.1 0#7 rt rb ra) s = writeX rt (row.2 (s.reg s.mode ra) (s.reg s.mode rb)) 1 s := by
    simp only [List.mem_cons, List.not_mem_nil, or_false] at hrow
    rcases hrow with rfl | rfl | rfl | rfl | rfl | rfl <;> exact inferred_of_format rfl _
  rw [meaning]
  exact writeX_next_onlyRegChanges ..

/-- Settles O25. -/
theorem inferredRegisterCompare : Obligations.InferredRegisterCompare := by
  intro s rb ra
  have meaning : exec (.cmp 0#7 0#5 rb ra) s = compareX (s.reg s.mode ra) (s.reg s.mode rb) 1 s :=
    inferred_of_format rfl _
  rw [meaning]
  exact compareX_next_onlyFlagsChange ..

/-- Settles O26. -/
theorem outsideInferredFormatRefused : Obligations.OutsideInferredFormatRefused := by
  refine ⟨fun op hop s u rt rb ra unused => ?_, fun s u ut rb ra unused => ?_, fun s rest unused => ?_⟩
  · have outside : (u == 0#7) = false := beq_eq_false_iff_ne.2 unused
    simp only [List.mem_cons, List.not_mem_nil, or_false] at hop
    rcases hop with rfl | rfl | rfl | rfl | rfl | rfl <;> exact inferred_of_not_format outside _
  · have outside : (u == 0#7 && ut == 0#5) = false := by
      rcases unused with h | h <;> simp [h]
    exact inferred_of_not_format outside _
  · exact inferred_of_not_format (beq_eq_false_iff_ne.2 unused) _

end Sys2Proof.Machine
end

section
/-! PROOFS. Control transfer: the branches by their conditions, the order branches after a compare, and the jumps. -/

namespace Sys2Proof.Machine

/-! ## The branches (R200) -/

/-- A branch completes with pc alone assigned: the target if taken, else the next word. -/
theorem branch_next_onlyPcChanges (taken : Bool) (imm : BitVec 17) (s : State) :
    ∃ t, branch taken imm s = .next t ∧ OnlyPcChanges s t ∧
      t.pc = if taken = true then s.pc + 1 + imm.signExtend 32 else s.pc + 1 :=
  ⟨_, branch_eq taken imm s, State.setPc_onlyPcChanges s _, rfl⟩

/-- The same after the draw of the external signal. -/
theorem branch_tick_next_onlyPcChanges (taken : Bool) (imm : BitVec 17) (s : State) :
    ∃ t, branch taken imm s.tick = .next t ∧ OnlyPcChanges s t ∧
      t.pc = if taken = true then s.pc + 1 + imm.signExtend 32 else s.pc + 1 :=
  ⟨_, branch_eq taken imm s.tick, State.tick_setPc_onlyPcChanges s _, rfl⟩

/-- Settles O30: each is the branch of its condition, and its word has the condition number and opcode 03h. -/
theorem flagBranchesTestTheirFlags : Obligations.FlagBranchesTestTheirFlags := by
  intro row hrow s imm ra
  simp only [List.mem_cons, List.not_mem_nil, or_false] at hrow
  rcases hrow with rfl | rfl | rfl | rfl | rfl | rfl | rfl | rfl | rfl | rfl <;>
    exact ⟨encodeBR_and_mask _ imm ra, branch_next_onlyPcChanges _ imm s⟩

/-- Settles O31. -/
theorem signedBranchesTestTheirFlags : Obligations.SignedBranchesTestTheirFlags := by
  intro row hrow s imm ra
  simp only [List.mem_cons, List.not_mem_nil, or_false] at hrow
  rcases hrow with rfl | rfl | rfl | rfl | rfl | rfl | rfl <;>
    exact ⟨encodeBR_and_mask _ imm ra, branch_next_onlyPcChanges _ imm s⟩

/-- Settles O33. -/
theorem registerBranchesTestTheRegister : Obligations.RegisterBranchesTestTheRegister := by
  intro row hrow s imm ra
  simp only [List.mem_cons, List.not_mem_nil, or_false] at hrow
  rcases hrow with rfl | rfl | rfl | rfl <;>
    exact ⟨encodeBR_and_mask _ imm ra, branch_next_onlyPcChanges _ imm s⟩

/-- Settles O34: BXC and BXS branch after one draw, BRC and BRS without. -/
theorem signalAndReservationBranches : Obligations.SignalAndReservationBranches := by
  intro row hrow s imm ra
  simp only [List.mem_cons, List.not_mem_nil, or_false] at hrow
  rcases hrow with rfl | rfl | rfl | rfl
  · exact ⟨encodeBR_and_mask _ imm ra, branch_tick_next_onlyPcChanges _ imm s⟩
  · exact ⟨encodeBR_and_mask _ imm ra, branch_tick_next_onlyPcChanges _ imm s⟩
  · exact ⟨encodeBR_and_mask _ imm ra, branch_next_onlyPcChanges _ imm s⟩
  · exact ⟨encodeBR_and_mask _ imm ra, branch_next_onlyPcChanges _ imm s⟩

/-! ## The signed conditions (R214 to R217) -/

theorem Flags.greaterOrEqual_eq (f : Flags) : f.greaterOrEqual = !f.less := by
  obtain ⟨cf, zf, nf, vf, odd⟩ := f
  cases nf <;> cases vf <;> rfl

theorem Flags.lessOrEqual_eq (f : Flags) : f.lessOrEqual = (f.zf || f.less) := Bool.or_assoc ..

/-- The corrected BGT is the complement of BLE (C4). -/
theorem Flags.greater_eq_not_lessOrEqual (f : Flags) : f.greater = !f.lessOrEqual := by
  obtain ⟨cf, zf, nf, vf, odd⟩ := f
  cases zf <;> cases nf <;> cases vf <;> rfl

theorem Flags.greater_eq (f : Flags) : f.greater = (f.nf == f.vf && !f.zf) := by
  obtain ⟨cf, zf, nf, vf, odd⟩ := f
  cases zf <;> cases nf <;> cases vf <;> rfl

/-- Settles O32. -/
theorem bgtIsTheComplementOfBle : Obligations.BgtIsTheComplementOfBle := by
  intro s imm ra rb
  obtain ⟨t, bgt, frame, target⟩ := branch_next_onlyPcChanges s.flags.greater imm s
  obtain ⟨u, ble, -, other⟩ := branch_next_onlyPcChanges s.flags.lessOrEqual imm s
  refine ⟨encodeBR_and_mask 0x0E#5 imm ra, t, u, bgt, frame, ble, ?_, ?_⟩
  · rw [target, Flags.greater_eq]
    rfl
  · rw [target, other, Flags.greater_eq_not_lessOrEqual]
    cases s.flags.lessOrEqual
    · exact .inl ⟨rfl, rfl⟩
    · exact .inr ⟨rfl, rfl⟩

/-! ## The order branches after a compare (R148, R201) -/

/-- The sign of the difference, corrected by its overflow, is the signed order. -/
theorem IsCompare.less {a b : Word} {f : Flags} (h : IsCompare a b f) : f.less = decide (a.toInt < b.toInt) := by
  obtain ⟨-, -, nf, vf⟩ := h
  have ha := a.toInt_lt
  have ha' := a.le_toInt
  have hb := b.toInt_lt
  have hb' := b.le_toInt
  have wrapped : (a - b).toInt = a.toInt - b.toInt ∨ (a - b).toInt = a.toInt - b.toInt - 4294967296 ∨
      (a - b).toInt = a.toInt - b.toInt + 4294967296 := by
    rw [BitVec.toInt_sub, Int.bmod_def]
    split <;> omega
  have high := (a - b).toInt_lt
  have low := (a - b).le_toInt
  rw [Flags.less, nf, vf, Bool.eq_iff_iff]
  simp only [Bool.or_eq_true, Bool.and_eq_true, Bool.not_eq_true', decide_eq_true_eq, decide_eq_false_iff_not]
  omega

theorem IsCompare.order {a b : Word} {f : Flags} (h : IsCompare a b f) :
    f.higher = decide (b.toNat < a.toNat) ∧ f.lowerOrSame = decide (a.toNat ≤ b.toNat) ∧
      (!f.cf) = decide (b.toNat ≤ a.toNat) ∧ f.cf = decide (a.toNat < b.toNat) ∧ (!f.zf) = decide (a ≠ b) ∧
      f.zf = decide (a = b) ∧ f.greaterOrEqual = decide (b.toInt ≤ a.toInt) ∧ f.less = decide (a.toInt < b.toInt) ∧
      f.greater = decide (b.toInt < a.toInt) ∧ f.lessOrEqual = decide (a.toInt ≤ b.toInt) := by
  have less := h.less
  obtain ⟨cf, zf, -, -⟩ := h
  have natEq : a = b ↔ a.toNat = b.toNat := BitVec.toNat_inj.symm
  have intEq : a = b ↔ a.toInt = b.toInt := BitVec.toInt_inj.symm
  refine ⟨?_, ?_, ?_, cf, ?_, zf, ?_, less, ?_, ?_⟩
  · rw [Flags.higher, cf, zf, Bool.eq_iff_iff]
    simp [natEq]
    omega
  · rw [Flags.lowerOrSame, cf, zf, Bool.eq_iff_iff]
    simp [natEq]
    omega
  · rw [cf, Bool.eq_iff_iff]
    simp
  · simp [zf]
  · rw [Flags.greaterOrEqual_eq, less, Bool.eq_iff_iff]
    simp
  · rw [Flags.greater_eq_not_lessOrEqual, Flags.lessOrEqual_eq, zf, less, Bool.eq_iff_iff]
    simp [intEq]
    omega
  · rw [Flags.lessOrEqual_eq, zf, less, Bool.eq_iff_iff]
    simp [intEq]
    omega

/-- Settles O35: each branch is taken on its condition, and after the compare the condition is the order. -/
theorem branchesAfterCompareDecideOrder : Obligations.BranchesAfterCompareDecideOrder := by
  intro a b s imm ra compared row hrow
  obtain ⟨hi, ls, hs, lo, ne, eq, ge, lt, gt, le⟩ := compared.order
  have decided (taken : Bool) (h : taken = row.2) : ∃ t, branch taken imm s = .next t ∧
      t.pc = if row.2 = true then s.pc + 1 + imm.signExtend 32 else s.pc + 1 := by
    obtain ⟨t, next, -, pc⟩ := branch_next_onlyPcChanges taken imm s
    exact ⟨t, next, h ▸ pc⟩
  simp only [List.mem_cons, List.not_mem_nil, or_false] at hrow
  rcases hrow with rfl | rfl | rfl | rfl | rfl | rfl | rfl | rfl | rfl | rfl
  · exact decided _ hi
  · exact decided _ ls
  · exact decided _ hs
  · exact decided _ lo
  · exact decided _ ne
  · exact decided _ eq
  · exact decided _ ge
  · exact decided _ lt
  · exact decided _ gt
  · exact decided _ le

/-! ## The jumps (R230, R232) -/

/-- A 27-bit offset or limit is zero-extended (D21). -/
theorem offset27_toNat (v : BitVec 27) : (offset27 v).toNat = v.toNat := by
  have := v.isLt
  rw [offset27, BitVec.toNat_setWidth]
  omega

/-- Settles O38. -/
theorem jumpAssignsOffset : Obligations.JumpAssignsOffset :=
  fun s offset => ⟨_, rfl, offset27_toNat offset, State.setPc_onlyPcChanges s _⟩

/-- A set code names the sets that the model finds for it (R244). -/
theorem setOf_eq_some_iff {code : BitVec 3} {current m : Mode} : setOf code current = some m ↔ NamesSet code current m := by
  unfold NamesSet
  cases current <;> cases m <;> revert code <;> decide

/-- JMF outside the user modes: the unused field, then Ts, then the code segment and pc (R232). -/
theorem exec_jmf_of_supervisor {s : State} (h : s.Supervisor) (offset : BitVec 27) (segment : Word) (ts : BitVec 3)
    (u : BitVec 2) (limit : BitVec 27) :
    exec (.jmf offset segment ts u limit) s =
      if u ≠ 0#2 then .refused .nonzeroUnusedField
      else if setOf ts s.mode = some s.mode then
        .next ((s.setCode s.mode segment (offset27 limit)).setPc (offset27 offset))
      else .refused .jmfTsUnspecified :=
  privileged_of_supervisor h

/-- Settles O39. -/
theorem farJumpLoadsCodeSegment : Obligations.FarJumpLoadsCodeSegment := by
  intro s offset limit segment ts supervisor named
  refine ⟨(s.setCode s.mode segment (offset27 limit)).setPc (offset27 offset), ?_, offset27_toNat offset, ?_, ?_,
    fun m r _ => State.setCode_reg .., fun m _ => setCode_flags .., fun m k _ code => setCode_special _ _ _ _ _ code,
    ⟨rfl, rfl, rfl⟩, ⟨rfl, rfl⟩, ⟨rfl, rfl, rfl, rfl⟩, fun _ _ => rfl⟩
  · rw [exec_jmf_of_supervisor supervisor, if_neg (by simp), if_pos (setOf_eq_some_iff.2 named)]
  · simp
  · simpa using offset27_toNat limit

end Sys2Proof.Machine
end

section
/-! PROOFS. MOV, MFSPR and the forms the spec refuses; register 0 and the stack pointer; reset, the step on a decoded
instruction and the placing of one. -/

namespace Sys2Proof.Machine

/-! ## MOV (R243, R244) -/

theorem State.Supervisor.isUser {s : State} (h : s.Supervisor) : s.mode.isUser = false := by
  rcases h with h | h <;> rw [h] <;> rfl

/-- The moves that are admitted, in the terms of the spec. -/
theorem movAdmitted_iff {source target current : Mode} :
    movAdmitted source target current = true ↔
      current.isUser = false ∨ (source = current ∧ (target = current ∨ target = .system)) := by
  simp [movAdmitted]

/-- MOV between two named sets moves the register, or is refused for the privilege the spec does not state. -/
theorem exec_mov_of_namesSet {s : State} {ts ss : BitVec 3} {source target : Mode} (hs : NamesSet ss s.mode source)
    (ht : NamesSet ts s.mode target) (rt ra : Reg) :
    exec (.mov ts rt ss ra) s =
      if movAdmitted source target s.mode = true then
        .next ((s.setReg target rt (s.reg source ra)).setPc (s.pc + 1))
      else .refused .movPrivilegeUnspecified := by
  simp only [exec, execMov, setOf_eq_some_iff.2 hs, setOf_eq_some_iff.2 ht]
  rfl

/-- Settles O48. -/
theorem movCopiesBetweenSets : Obligations.MovCopiesBetweenSets := by
  intro s ts ss rt ra source target hs ht admitted
  have moves := movAdmitted_iff.2 (admitted.imp_left State.Supervisor.isUser)
  refine ⟨(s.setReg target rt (s.reg source ra)).setPc (s.pc + 1), ?_, rfl, State.setReg_setPc_onlyRegChanges ..⟩
  rw [exec_mov_of_namesSet hs ht, if_pos moves]

/-- Codes 4, 5 and 6 name no set. -/
theorem setOf_of_reserved {code : BitVec 3} (h : code ∈ [4#3, 5#3, 6#3]) (current : Mode) : setOf code current = none := by
  simp only [List.mem_cons, List.not_mem_nil, or_false] at h
  rcases h with rfl | rfl | rfl <;> rfl

theorem exec_mov_of_reserved {ts ss : BitVec 3} (h : ts ∈ [4#3, 5#3, 6#3] ∨ ss ∈ [4#3, 5#3, 6#3]) (rt ra : Reg)
    (s : State) : exec (.mov ts rt ss ra) s = .refused .reservedSetCode := by
  simp only [exec, execMov]
  rcases h with h | h <;> rw [setOf_of_reserved h]
  cases setOf ss s.mode <;> rfl

/-! ## MFSPR (R36, R245) -/

/-- Outside the user modes MFSPR of a named register other than the MSW writes what the register reads as. -/
theorem mfspr_next_onlyRegChanges {s : State} (h : s.Supervisor) {spr : BitVec 7} {r : Spr} (hr : sprOf spr = some r)
    (hm : r ≠ .msw) (rt : Reg) :
    ∃ t, exec (.mfspr spr rt) s = .next t ∧ t.pc = s.pc + 1 ∧
      OnlyRegChanges s.mode rt (s.readSpr (Config.mswUnused s.draws) r) s t := by
  have body : exec (.mfspr spr rt) s = _ := privileged_of_supervisor h
  rw [body, hr]
  simp only [hm, if_false]
  exact writeX_next_onlyRegChanges ..

/-- MFSPR of the MSW writes an image of it, after one draw for its unused bits. -/
theorem mfspr_msw_next_onlyRegChanges {s : State} (h : s.Supervisor) (rt : Reg) :
    ∃ t, exec (.mfspr 0x03#7 rt) s = .next t ∧ t.pc = s.pc + 1 ∧
      OnlyRegChanges s.mode rt (s.mswImage s.mode (Config.mswUnused s.draws)) s t := by
  have body : exec (.mfspr 0x03#7 rt) s = _ := privileged_of_supervisor h
  rw [body]
  exact writeX_next_onlyRegChanges rt _ 1 s.tick

/-- Settles O49: each number of the map is looked up, and what is read is the named state. -/
theorem mfsprReadsTheNamedState : Obligations.MfsprReadsTheNamedState := by
  intro s rt supervisor
  refine ⟨fun row hrow m => ?_, fun row hrow => ?_, fun row hrow => ?_, ?_⟩
  · have named : ∃ k, sprOf (row.1 + m.bits.setWidth 7) = some (.banked k m) ∧ row.2 = fun b => b.special k := by
      simp only [List.mem_cons, List.not_mem_nil, or_false] at hrow
      rcases hrow with rfl | rfl | rfl | rfl | rfl | rfl | rfl | rfl | rfl | rfl | rfl | rfl | rfl <;> cases m <;>
        exact ⟨_, rfl, rfl⟩
    obtain ⟨k, number, register⟩ := named
    rw [register]
    exact mfspr_next_onlyRegChanges supervisor number (by simp) rt
  · have named : ∃ k, sprOf row.1 = some (.current k) ∧ row.2 = fun b => b.special k := by
      simp only [List.mem_cons, List.not_mem_nil, or_false] at hrow
      rcases hrow with rfl | rfl | rfl | rfl | rfl | rfl | rfl | rfl | rfl | rfl | rfl | rfl <;> exact ⟨_, rfl, rfl⟩
    obtain ⟨k, number, register⟩ := named
    rw [register]
    exact mfspr_next_onlyRegChanges supervisor number (by simp) rt
  · have named : ∃ r, sprOf row.1 = some r ∧ r ≠ .msw ∧ row.2 s = s.readSpr (Config.mswUnused s.draws) r := by
      simp only [List.mem_cons, List.not_mem_nil, or_false] at hrow
      rcases hrow with rfl | rfl | rfl | rfl | rfl <;> exact ⟨_, rfl, by simp, rfl⟩
    obtain ⟨r, number, other, register⟩ := named
    rw [register]
    exact mfspr_next_onlyRegChanges supervisor number other rt
  · obtain ⟨t, next, pc, frame⟩ := mfspr_msw_next_onlyRegChanges supervisor rt
    exact ⟨t, _, next, pc, mswWord_isMswImage .., frame⟩

/-- The numbers with no named register (R36). -/
theorem sprOf_eq_none : ∀ spr : BitVec 7,
    spr.toNat ∈ [0x00, 0x01, 0x04, 0x05, 0x06, 0x07, 0x1C, 0x1D, 0x1E, 0x1F, 0x4C, 0x4D, 0x4E, 0x4F] ∨
      0x54 ≤ spr.toNat → sprOf spr = none := by
  decide

/-! ## The refused forms -/

/-- Settles O51. -/
theorem unspecifiedSystemFormsRefused : Obligations.UnspecifiedSystemFormsRefused := by
  intro s
  refine ⟨fun offset segment ts u limit supervisor unused => ?_, fun offset segment ts limit supervisor other => ?_,
    fun rt ra debug => ?_, fun ts rt ss ra reserved => exec_mov_of_reserved reserved rt ra s,
    fun ts rt ss ra source target user hs ht other => ?_, fun spr rt supervisor unlisted => ?_⟩
  · rw [exec_jmf_of_supervisor supervisor, if_pos unused]
  · rw [exec_jmf_of_supervisor supervisor, if_neg (by simp), if_neg fun named => other (setOf_eq_some_iff.1 named)]
  · have body : exec (.rti rt ra) s = _ := privileged_of_supervisor (.inr debug)
    rw [body, if_pos debug]
  · have notAdmitted : ¬ movAdmitted source target s.mode = true := fun admitted =>
      (movAdmitted_iff.1 admitted).elim (fun h => by simp [(Mode.isUser_iff _).2 user] at h) other
    rw [exec_mov_of_namesSet hs ht, if_neg notAdmitted]
  · have body : exec (.mfspr spr rt) s = _ := privileged_of_supervisor supervisor
    rw [body, sprOf_eq_none spr unlisted]

/-! ## Register 0 and the stack pointer -/

/-- Settles O4. -/
theorem registerZeroReadsZeroAndDiscards : Obligations.RegisterZeroReadsZeroAndDiscards :=
  fun s m v => ⟨State.reg_zero s m, State.setReg_zero s m v⟩

/-- Settles O5. -/
theorem registerThirtyOneIsStackPointer : Obligations.RegisterThirtyOneIsStackPointer := by
  intro s m k v unused
  refine ⟨Bank.reg_stackPointer _, ?_, .banked .sp m, by cases m <;> rfl, (Bank.reg_stackPointer _).symm⟩
  rw [State.setReg_bank]
  split
  · rfl
  · rfl

/-! ## Reset (R42, R341) -/

/-- Settles O3: nothing has been written. -/
theorem resetMemoryIsCanonical : Obligations.ResetMemoryIsCanonical := rfl

/-- A step with the reset BRK outstanding is that BRK. -/
theorem step_of_resetPending {s : State} (h : s.resetPending = true) : step s = resetBrk s := by
  rw [step, if_pos h]

/-- Settles O1. -/
theorem resetReleasesStatedValues : Obligations.ResetReleasesStatedValues :=
  ⟨rfl, rfl, rfl, rfl, rfl, rfl, rfl, rfl, rfl, fun _ => step_of_resetPending⟩

/-- The frame of the reset BRK, below ssp = 0x100 in the segment at 0. -/
def resetFrame : FrameAddrs := ⟨0xFC, 0xFD, 0xFE, 0xFF⟩

theorem reset_pushesFrame : State.reset.endReset.PushesFrame resetFrame := by
  rw [State.PushesFrame, State.frameAt_iff]
  decide

/-- Settles O2: the reset BRK is the trap entry of the reset vector, from the values reset states. -/
theorem resetBrkEntersVectorTable : Obligations.ResetBrkEntersVectorTable := by
  obtain ⟨image, -, -, -, memory, -, sp, csl, cs, pc, -⟩ :=
    trapEntry_trapTaken Config.resetVector Config.resetSavedPc reset_pushesFrame
  refine ⟨trapEntry Config.resetVector Config.resetSavedPc resetFrame State.reset.endReset,
    brkSequence_eq_next_iff.2 ⟨resetFrame, reset_pushesFrame, rfl⟩, rfl, rfl, sp, csl, cs, pc, ?_, ?_, ?_, rfl, memory⟩
  · have small := Config.resetVector.isLt
    rw [lin_toNat, pc, trapEntry_mode, cs]
    show (0xFFFFFFFF * 4096 + Config.resetVector.toNat * 4) % 2 ^ 44 = _
    omega
  · exact image.1
  · exact image.2.2.2.2.2.1

/-! ## The step on a decoded instruction (R308) -/

/-- Inside the code limit the instruction that decodes at pc runs. -/
theorem runInstruction_of_decodeNext {s : State} {i : Instr} (within : s.pc.toNat ≤ (s.bank s.mode).csl.toNat)
    (decoded : s.decodeNext = .ok i) : runInstruction s = exec i s := by
  have inside : s.pcOutOfBounds = false := decide_eq_false (by rw [BitVec.lt_def]; omega)
  rw [runInstruction, inside, decoded]
  rfl

/-- Settles O9. -/
theorem stepRunsDecodedInstruction : Obligations.StepRunsDecodedInstruction := by
  intro s i ready within decoded wf
  have next : s.decodeNext = .ok i := by
    have noOffset : s.pc + 0 = s.pc := BitVec.add_zero s.pc
    rw [State.decodeNext, State.fetch, noOffset]
    exact decoded
  rw [step_of_not_resetPending ready]
  cases s.im
  · cases Config.interruptRequest s.draws with
    | none => exact @runInstruction_of_decodeNext s.tick i within next
    | some v => rfl
  · exact runInstruction_of_decodeNext within next

/-! ## Placing an instruction (log 30) -/

/-- A placed word is the one fetched from its place, and the words at other places are as they were. -/
theorem placeWord_fetch (s : State) (k j w : Word) : (s.placeWord k w).fetch j = if j = k then w else s.fetch j := by
  have place : lin (s.bank s.mode).cs (s.pc + j) = lin (s.bank s.mode).cs (s.pc + k) ↔ j = k :=
    ⟨fun h => add_left_cancel (lin_inj _ h), fun h => by rw [h]⟩
  have fetched : (s.placeWord k w).fetch j = _ :=
    State.writeWord_readWord s (lin (s.bank s.mode).cs (s.pc + k)) w (lin (s.bank s.mode).cs (s.pc + j))
  rw [fetched]
  simp only [place]
  rfl

/-- The words of a table word that decodes. -/
theorem decode_of_decodeTableWord {nbits w : Nat} {i : Instr} (h : decodeTableWord nbits w = some i) :
    decode (BitVec.ofNat 32 (w % 2 ^ nbits)) (BitVec.ofNat 32 ((w % 2 ^ nbits) >>> 32))
      (BitVec.ofNat 32 ((w % 2 ^ nbits) >>> 64)) = .ok i := by
  dsimp only [decodeTableWord] at h
  split at h
  · next decoded => cases h; exact decoded
  · cases h

/-- What stands at pc after an instruction is placed there. -/
theorem withFetchWord_decodeNext (s : State) (nbits w : Nat) :
    (s.withFetchWord nbits w).decodeNext =
      decode (BitVec.ofNat 32 (w % 2 ^ nbits)) (BitVec.ofNat 32 ((w % 2 ^ nbits) >>> 32))
        (BitVec.ofNat 32 ((w % 2 ^ nbits) >>> 64)) := by
  simp [State.decodeNext, State.withFetchWord, placeWord_fetch]

/-- Placing an instruction raises a code limit below pc to pc. -/
theorem withFetchWord_within (s : State) (nbits w : Nat) :
    (s.withFetchWord nbits w).pc.toNat ≤
      ((s.withFetchWord nbits w).bank (s.withFetchWord nbits w).mode).csl.toNat := by
  have limit : ((s.withFetchWord nbits w).bank (s.withFetchWord nbits w).mode).csl =
      if (s.bank s.mode).csl < s.pc then s.pc else (s.bank s.mode).csl := by simp [State.withFetchWord]
  rw [limit]
  show s.pc.toNat ≤ _
  split
  · exact Nat.le_refl _
  · next h => exact Nat.not_lt.1 h

/-- Settles O10: interrupts are masked and the words at pc are the placed ones. -/
theorem placedInstructionRunsNext : Obligations.PlacedInstructionRunsNext := by
  intro s nbits w i h
  have decoded := (withFetchWord_decodeNext s nbits w).trans (decode_of_decodeTableWord h)
  have ready : (s.withFetchWord nbits w).resetPending = false := rfl
  have masked : (s.withFetchWord nbits w).im = true := rfl
  rw [step_of_not_resetPending ready, if_pos masked]
  exact runInstruction_of_decodeNext (withFetchWord_within s nbits w) decoded

end Sys2Proof.Machine
end
